-- ==== Sys2Proof/Word.lean ====
section
/-! DEFINITION. Word.lean: the plain types of the hardware: words at their widths, segments, levels, modes,
handles, and the eight-fold collection indexed by segment. -/

namespace Sys2Proof

/-- The 12-bit command word of spec/30_encoding.md R56. -/
abbrev CommandWord := BitVec 12

/-- The 8-bit SegmentBitmask: bit 7 is DP, bits 6 down to 0 are A down to G (R50). -/
abbrev Mask := BitVec 8

/-- A 7-bit glyph ROM word: bit 6 is A, bit 0 is G (R51). -/
abbrev Pattern := BitVec 7

/-- An 8-bit character code with the ASCII assignment (R53). -/
abbrev CharCode := BitVec 8

/-- The 8-bit unsigned operand of the hex variant (R54). -/
abbrev HexValue := BitVec 8

/-- A glyph address, 0..40. Typing it so is the choice 92_eei_decisions.md D28 offers: an address above 40 cannot
be written down (R37). -/
abbrev GlyphAddr := Fin 41

/-- A silkscreen position, 0..7 (R8, R111). -/
abbrev Position := Fin 8

/-- The glyph ROM: 41 words of 7 bits (R30). -/
abbrev GlyphRom := Vector Pattern 41

/-- The eight segments in logical order A, B, C, D, E, F, G, DP (R8, R14). -/
inductive Segment where
  | a | b | c | d | e | f | g | dp
deriving DecidableEq, Repr

/-- The segments in logical index order 0..7. -/
def Segment.list : List Segment := [.a, .b, .c, .d, .e, .f, .g, .dp]

/-- A line level (R8). -/
inductive Level where
  | low | high
deriving DecidableEq, Repr

/-- The direction of a line (R12). -/
inductive Mode where
  | unconf | output
deriving DecidableEq, Repr

/-- What a level cell holds: nothing yet, or the level most recently asserted (R10, R13). *Unwritten* is a state
the spec itself gives the cell. -/
inductive Line where
  | unwritten
  | driven (v : Level)
deriving DecidableEq, Repr

/-- The handle type at which the machine is run. The handle type is a parameter (R11, D19): everything from `Device` to
`stepAt` takes any type with decidable equality. DESIGN CHOICE (log 3): `step` takes this one, a name by number. -/
structure Handle where
  id : Nat
deriving DecidableEq, Repr

/-- Eight values, one for each segment: the shape of `PIN`, `MODE`, `LINE` and `PERMTAB`. -/
structure Octet (α : Type) where
  a : α
  b : α
  c : α
  d : α
  e : α
  f : α
  g : α
  dp : α
deriving DecidableEq, Repr

/-- The value at a segment. -/
def Octet.get {α : Type} (o : Octet α) : Segment → α
  | .a => o.a
  | .b => o.b
  | .c => o.c
  | .d => o.d
  | .e => o.e
  | .f => o.f
  | .g => o.g
  | .dp => o.dp

/-- The octet whose value at each segment is given by a function. -/
def Octet.ofFn {α : Type} (f : Segment → α) : Octet α :=
  ⟨f .a, f .b, f .c, f .d, f .e, f .f, f .g, f .dp⟩

/-- The octet with a function applied at every segment. -/
def Octet.map {α β : Type} (f : α → β) (o : Octet α) : Octet β := Octet.ofFn fun l => f (o.get l)

/-- The octet that holds one value at every segment. -/
def Octet.fill {α : Type} (v : α) : Octet α := Octet.ofFn fun _ => v

/-- The eight values in logical order A..DP. -/
def Octet.toList {α : Type} (o : Octet α) : List α := [o.a, o.b, o.c, o.d, o.e, o.f, o.g, o.dp]

/-- Whether a test holds at all eight segments. -/
def Octet.all {α : Type} (p : α → Bool) (o : Octet α) : Bool := o.toList.all p

end Sys2Proof
end

