-- ==== Sys2Proof/Config.lean ====
section
/-! DEFINITION. Config.lean: the constants the document fixes (R5) and the shape of the parameters it leaves to
the implementer (R6, R16): the straps of one Device and the tables all Devices share. Every value the model leaves
open is a field of State of one of these shapes, so that a statement about every state is one about every value. -/

namespace Sys2Proof

/-- `NSEG`: segments and output lines of a Device (R5). -/
def Config.nseg : Nat := 8

/-- `DP_BIT`: the bit of a SegmentBitmask that holds DP (R5). -/
def Config.dpBit : Nat := 7

/-- `ACTIVE`: the level that lights a segment (R5). -/
def Config.active : Level := .low

/-- `INACTIVE`: the level that darkens a segment (R5). -/
def Config.inactive : Level := .high

/-- `HEX_MAX`: the largest value the hex variant accepts (R5). -/
def Config.hexMax : Nat := 15

/-- `POLICY`: which resolver `DISPLAY` uses (R6, R16). -/
inductive Policy where
  | range | fixed
deriving DecidableEq, Repr

/-- The straps of one Device, fixed when it is built (R16). `POLICY` has no default: the one who builds the
Device states it (R6). -/
structure Straps where
  policy : Policy
  rangeStatusParity : Bool := false
  fixedCaseFold : Bool := true
deriving DecidableEq, Repr

/-- The read-only tables every Device shares (R17, R24, R41): the glyph ROM and the fixed list. The third table,
the permutation, is a constant (Machine/Tables.lean). -/
structure Tables where
  glyphRom : GlyphRom
  fixedList : List CharCode
deriving DecidableEq, Repr

end Sys2Proof
end

