-- ==== Sys2Proof/Machine/Tables.lean ====
section
/-! DEFINITION. Machine/Tables.lean: the contents of the read-only tables: the pin permutation and its inverse
(R111, R112), the default glyph ROM (R82) and the default fixed list (R98). -/

namespace Sys2Proof.Machine

/-- `PERMTAB`: the word at each logical index A..DP (R33, R112). -/
def permTab : Octet Position := ⟨5, 4, 2, 1, 0, 6, 7, 3⟩

/-- `PERM[l]`: the silkscreen position whose handle becomes segment `l`'s (R112). -/
def perm (l : Segment) : Position := permTab.get l

/-- `INVPERM[p]`: the segment at silkscreen position `p`: E, D, C, DP, B, A, F, G (R111). -/
def invPerm : Position → Segment
  | 0 => .e
  | 1 => .d
  | 2 => .c
  | 3 => .dp
  | 4 => .b
  | 5 => .a
  | 6 => .f
  | 7 => .g

/-- The package pin at each silkscreen position: 1, 2, 4, 5, 6, 7, 9, 10 (R111). -/
def packagePin : Position → Nat
  | 0 => 1
  | 1 => 2
  | 2 => 4
  | 3 => 5
  | 4 => 6
  | 5 => 7
  | 6 => 9
  | 7 => 10

/-- The default glyph ROM, addresses 0 to 40 in order (R82). PRESUMED where R82 marks an entry "supplied": the
spec takes it from the customary font (log 1). -/
def defaultRom : GlyphRom :=
  #v[0x7E, 0x30, 0x6D, 0x79, 0x33, 0x5B, 0x5F, 0x70, 0x7F, 0x7B,   -- 0 to 9
     0x77, 0x1F, 0x4E, 0x3D, 0x4F, 0x47, 0x5E, 0x37, 0x06, 0x3C,   -- A to J
     0x37, 0x0E, 0x00, 0x15, 0x1D, 0x67, 0x73, 0x05, 0x5B, 0x0F,   -- K to T
     0x3E, 0x3E, 0x00, 0x37, 0x3B, 0x6D,                           -- U to Z
     0x00, 0x01, 0x00, 0x63, 0x08]                                 -- blank, dash, dot, star, underscore

/-- The default `FIXED_LIST`: `0123456789ABCDEFGHI.` (R98). -/
def defaultFixedList : List CharCode :=
  [0x30, 0x31, 0x32, 0x33, 0x34, 0x35, 0x36, 0x37, 0x38, 0x39,
   0x41, 0x42, 0x43, 0x44, 0x45, 0x46, 0x47, 0x48, 0x49, 0x2E]

/-- The tables a runnable model uses (R6). -/
def defaultTables : Tables := { glyphRom := defaultRom, fixedList := defaultFixedList }

end Sys2Proof.Machine
end

