-- ==== Sys2Proof/Machine/Operands.lean ====
section
/-! DEFINITION. Machine/Operands.lean: every operand form: the SegmentBitmask's bits (R50), the glyph ROM read
(R70), the composition with DP (R52), and the three resolvers of a character or a hex value
(spec/41_symbol_resolution.md). -/

namespace Sys2Proof.Machine

/-- `segbit(l)`: the bit of a SegmentBitmask that belongs to segment `l` (R8, R50). -/
def segbit : Segment → Nat
  | .a => 6
  | .b => 5
  | .c => 4
  | .d => 3
  | .e => 2
  | .f => 1
  | .g => 0
  | .dp => Config.dpBit

/-- Whether a SegmentBitmask asks for segment `l` to be lit (R50). -/
def maskBit (b : Mask) (l : Segment) : Bool := b.getLsbD (segbit l)

/-- `encode(a) = MemRead(GLYPH, a)`: the glyph ROM read (R70). -/
def glyphPattern (rom : GlyphRom) (addr : GlyphAddr) : Pattern := rom.get addr

/-- `compose(pattern, dp) = {dp, pattern}` (R52). -/
def compose (pattern : Pattern) (dp : Bool) : Mask := BitVec.ofBool dp ++ pattern

/-- What a resolver returns (spec/41_symbol_resolution.md, opening). -/
inductive Resolution where
  | resolved (addr : GlyphAddr) (forceDp : Bool)
  | unsupported
deriving DecidableEq, Repr

/-- `resolve_range(c)` (R91): digits at 0..9, letters of either case at 10..35, the five specials at 36..40. -/
def resolveRange (c : CharCode) : Resolution :=
  if h : 0x30 ≤ c.toNat ∧ c.toNat ≤ 0x39 then .resolved ⟨c.toNat - 0x30, by omega⟩ false
  else if h : 0x41 ≤ c.toNat ∧ c.toNat ≤ 0x5A then .resolved ⟨10 + (c.toNat - 0x41), by omega⟩ false
  else if h : 0x61 ≤ c.toNat ∧ c.toNat ≤ 0x7A then .resolved ⟨10 + (c.toNat - 0x61), by omega⟩ false
  else if c = 0x20 then .resolved 36 false
  else if c = 0x2D then .resolved 37 false
  else if c = 0x2E then .resolved 38 true
  else if c = 0x2A then .resolved 39 false
  else if c = 0x5F then .resolved 40 false
  else .unsupported

/-- `fold(c)`: a lower-case letter's code to upper case, every other code as it is (R96). -/
def foldCase (c : CharCode) : CharCode :=
  if 0x61 ≤ c.toNat ∧ c.toNat ≤ 0x7A then c - 0x20 else c

/-- `key(c)`: what the list search compares, by the strap `FIXED_CASE_FOLD` (R96, R97). -/
def searchKey (caseFold : Bool) (c : CharCode) : CharCode := if caseFold then foldCase c else c

/-- `resolve_fixed(c)`: linear search of the list in ascending order; a matched entry gives the address the range
decoder gives that entry (R96). -/
def resolveFixed (caseFold : Bool) : List CharCode → CharCode → Resolution
  | [], _ => .unsupported
  | e :: rest, c =>
    if searchKey caseFold e = searchKey caseFold c then resolveRange e else resolveFixed caseFold rest c

/-- `resolve_hex(v)` (R99). -/
def resolveHex (v : HexValue) : Resolution :=
  if h : v.toNat ≤ Config.hexMax then .resolved ⟨v.toNat, by simp only [Config.hexMax] at h; omega⟩ false
  else .unsupported

/-- The resolver `DISPLAY` uses on a Device, by its strap `POLICY` (R90). -/
def resolveChar (tables : Tables) (straps : Straps) (c : CharCode) : Resolution :=
  match straps.policy with
  | .range => resolveRange c
  | .fixed => resolveFixed straps.fixedCaseFold tables.fixedList c

end Sys2Proof.Machine
end

