-- ==== Sys2Proof/Machine/Flags.lean ====
section
/-! DEFINITION. Machine/Flags.lean: the hardware has no flags and no condition codes (R21). What stands here is
what takes their place: the level a segment's bit selects, the decimal-point flag, and the result code that an
operation reports. -/

namespace Sys2Proof.Machine

/-- The three results an operation can report (R58, R140). Code 3 is never produced and has no constructor. -/
inductive Result where
  | ok | unsupported | wrongPinCount
deriving DecidableEq, Repr

/-- The 2-bit code of a result (R58). -/
def resultCode : Result → BitVec 2
  | .ok => 0
  | .unsupported => 1
  | .wrongPinCount => 2

/-- The active-low inversion: a segment to be lit gets the active level, any other the inactive one (R110, R117). -/
def levelOf (lit : Bool) : Level := if lit then Config.active else Config.inactive

/-- DP is driven with `dot | force_dp` (R100, R118). -/
def dpFlag (dot forceDp : Bool) : Bool := dot || forceDp

/-- What `DISPLAY` reports after it has written the lines: `OK`, but `UNSUPPORTED` when the range policy is strapped
for parity with the observed defect (R95, R118). -/
def displayStatus (straps : Straps) : Result :=
  match straps.policy, straps.rangeStatusParity with
  | .range, true => .unsupported
  | .range, false => .ok
  | .fixed, _ => .ok

end Sys2Proof.Machine
end

