-- ==== Sys2Proof/Machine/State.lean ====
section
/-! DEFINITION. Machine/State.lean: everything the spec gives the machine, as plain data; the reasons a step can
stop; and the machine before the host has done anything. `H` is the handle type, a parameter (R11, D19); where none is
written it is `Handle`. -/

namespace Sys2Proof.Machine

/-- One Device: the state of R10, and the straps it was built with (R16, R150), which no operation reads back or
writes. -/
structure Device (H : Type := Handle) where
  /-- The straps, fixed when the Device is built (R16). -/
  straps : Straps
  /-- `PIN`: the handle of the line that drives each segment (R11). -/
  pin : Octet H
  /-- `MODE`: the direction of each line (R12). -/
  mode : Octet Mode
  /-- `LINE`: the level most recently asserted on each line, or unwritten (R13). -/
  line : Octet Line
deriving DecidableEq, Repr

/-- Where a Device stands. A Device that does not exist yet has no slot (R18 *absent*). -/
inductive Slot (H : Type := Handle) where
  /-- A constructed Device, configured or not. -/
  | live (d : Device H)
  /-- The host discarded it, whether or not it was configured (R18 *dropped*; log 10): what its lines do now is not in
  the source, so nothing is kept (R170, 93_implementation_defined.md U13). -/
  | dropped
deriving DecidableEq, Repr

/-- What the host can do to the machine, one at a time. -/
inductive HostInput (H : Type := Handle) where
  /-- `construct(physical_pins)`: it has no command word (R113, R57). The one who builds a Device also states its
  straps (R6, R16). -/
  | construct (straps : Straps) (pins : List H)
  /-- A command word issued to the Device in a slot (R56, R150). -/
  | command (device : Nat) (word : CommandWord)
  /-- The host discards the Device in a slot (R18, R170). -/
  | drop (device : Nat)
  /-- An operation on the character LCD, which is outside the core (R152). -/
  | peripheral
deriving DecidableEq, Repr

/-- Faults: none. "No operand value of any operation leads to a fault, a stuck state or a hang" (R144), and
93_implementation_defined.md treats nothing as `fault` or `stuck`: the two conditions of R140 are results. -/
inductive Fault where
deriving DecidableEq, Repr

/-- Why the model gives no next state. -/
inductive Refusal where
  /-- Raised by `exec`'s arm of an instruction the model gives no meaning yet. Safe. -/
  | notModelled (mnemonic : String)
  /-- Raised by `step` on a command word whose `op` is 6 or 7 (R59, U1). Safe: nothing is claimed past it. -/
  | reservedOperation (op : BitVec 3)
  /-- Raised by every runtime operation, and by a drop, addressed to no live Device (R163, U2). Safe. -/
  | noDevice
  /-- Raised by every runtime operation but `CONFIGURE` on a Device that is not configured (R163, U2). Safe. -/
  | notConfigured
  /-- Raised by `construct` given the same handle twice (R114, U6). Safe. -/
  | repeatedHandle
  /-- Raised by `construct` given a handle that a live Device owns (R114, U6). Safe. -/
  | sharedHandle
  /-- Raised by `construct` given a handle that is not valid (R164, U6). Safe. -/
  | invalidHandle
  /-- Raised by `construct` where the fixed list is ill-formed under the new Device's straps (R96, U14). Safe. -/
  | illFormedFixedList
deriving DecidableEq, Repr

/-- The whole machine. -/
structure State (H : Type := Handle) where
  /-- The shared read-only tables (R17, R41). No step writes them. -/
  tables : Tables
  /-- The handles the platform has no valid line for (R164, U6; log 3). No step writes them. -/
  invalidHandles : List H
  /-- The Devices in the order of their construction (R150). -/
  slots : List (Slot H)
  /-- MODEL: the slot of the Device the present operation is issued to. -/
  target : Nat
  /-- The result the last step put out, none where it was no operation (R21, R58). Nothing reads it. -/
  result : Option Result
  /-- MODEL: what the host issues next, oldest first (R17, R20). -/
  pending : List (HostInput H)
deriving DecidableEq, Repr

/-- Before the host has done anything: no Device exists (R18, R160), the tables hold their defaults (R82, R98), no
result is pending (R19), and the host has issued nothing. DESIGN CHOICE (log 3): every handle is valid. -/
def State.reset : State :=
  { tables := defaultTables, invalidHandles := [], slots := [], target := 0, result := none, pending := [] }

end Sys2Proof.Machine
end

