-- ==== Sys2Proof/WellFormed.lean ====
section
/-! DEFINITION. WellFormed.lean: what makes a build of the hardware well-formed: an admissible glyph ROM (R72 to
R79) and a well-formed fixed list (R96). Every term of Instr is well-formed: the widths of its operands are in their
types, and each of the 256 values of an 8-bit operand is legal (R53, R54, R117). -/

namespace Sys2Proof

/-- What every admissible `GLYPH_ROM` satisfies: R72 to R79, one line each (two for R75 and R77). -/
abbrev RomAdmissible (rom : GlyphRom) : Prop :=
  rom[0] = 0b1111110 ∧
  rom[8] = 0b1111111 ∧
  rom[31] = rom[30] ∧
  rom[20] = rom[17] ∧ rom[33] = rom[17] ∧
  rom[35] = rom[2] ∧
  rom[22] = 0 ∧ rom[32] = 0 ∧
  rom[36] = 0 ∧
  rom[38] = 0

/-- A well-formed `FIXED_LIST` under the strap `FIXED_CASE_FOLD`: no two entries with the same key, and every
entry in the range policy's set (R96). -/
abbrev FixedListWf (caseFold : Bool) (list : List CharCode) : Prop :=
  (list.map (Machine.searchKey caseFold)).Nodup ∧ ∀ e ∈ list, Machine.resolveRange e ≠ .unsupported

/-- Handles a `construct` may be given: pairwise distinct, and none in a list of handles already owned (R114). -/
abbrev HandlesFree {H : Type} (pins owned : List H) : Prop :=
  pins.Nodup ∧ ∀ h ∈ pins, h ∉ owned

/-- Handles a `construct` may be given: none in a list of invalid ones (R164, U6). -/
abbrev HandlesValid {H : Type} (pins invalid : List H) : Prop := ∀ h ∈ pins, h ∉ invalid

end Sys2Proof
end

