-- ==== Sys2Proof/Machine/Ops.lean ====
section
/-! DEFINITION. Machine/Ops.lean: the named operations over the state: finding and replacing the Device an operation
is issued to, driving all eight lines in one transition, raising a condition, and the phase checks of R163. -/

namespace Sys2Proof.Machine

/-- What a meaning or a step answers. -/
abbrev Answer (H : Type := Handle) := Host.Outcome (State H) Fault Refusal

variable {H : Type}

/-- The live Device in a slot. -/
def State.live? (s : State H) (k : Nat) : Option (Device H) :=
  match s.slots[k]? with
  | some (.live d) => some d
  | some .dropped => none
  | none => none

/-- The Device the present operation is issued to. -/
def State.device? (s : State H) : Option (Device H) := s.live? s.target

/-- All live Devices. -/
def State.liveDevices (s : State H) : List (Device H) :=
  s.slots.filterMap fun slot =>
    match slot with
    | Slot.live d => some d
    | Slot.dropped => none

/-- The handles that live Devices own (R114). -/
def State.owned (s : State H) : List H := s.liveDevices.flatMap fun d => d.pin.toList

/-- The Device the present operation is issued to becomes `d`. -/
def State.put (s : State H) (d : Device H) : State H := { s with slots := s.slots.set s.target (.live d) }

/-- A new Device, in a slot of its own after all others (R150, R163). -/
def State.add (s : State H) (d : Device H) : State H := { s with slots := s.slots ++ [Slot.live d] }

/-- The slot `k` holds no Device any more (R18 *dropped*). -/
def State.release (s : State H) (k : Nat) : State H := { s with slots := s.slots.set k .dropped }

/-- The step puts out a result (R21). -/
def State.report (s : State H) (r : Result) : State H := { s with result := some r }

/-- The step was no operation and puts out no result. -/
def State.silent (s : State H) : State H := { s with result := none }

/-- The host's next input is used up. -/
def State.consume (s : State H) (rest : List (HostInput H)) : State H := { s with pending := rest }

/-- The host's next input is a command, issued to the Device in slot `k`. -/
def State.issue (s : State H) (k : Nat) (rest : List (HostInput H)) : State H :=
  { s with pending := rest, target := k }

/-- `configured`: every line is in output-drive mode (R12). -/
def Device.configured (d : Device H) : Bool := d.mode.all fun m => decide (m = .output)

/-- `drive(b)`: the active-low inverter and the write of all 8 level cells in one transition (R110, R117, R36).
DESIGN CHOICE, unsafe for an electrical observer (log 8). -/
def Device.drive (b : Mask) (d : Device H) : Device H :=
  { d with line := Octet.ofFn fun l => .driven (levelOf (maskBit b l)) }

/-- Every line in output-drive mode (R115). -/
def Device.enableOutputs (d : Device H) : Device H := { d with mode := Octet.fill .output }

/-- `raise C`: the operation ends with result `C`, and every piece of state is as it was (R143). -/
def raise (c : Result) (s : State H) : Answer H := .next (s.report c)

/-- Go on with the Device the operation is issued to; where there is none, the spec gives no meaning (R163). -/
def withDevice (s : State H) (f : Device H → Answer H) : Answer H :=
  match s.device? with
  | some d => f d
  | none => .refused .noDevice

/-- Go on with a configured Device; before `configure` the spec gives no meaning (R163). -/
def withConfigured (s : State H) (f : Device H → Answer H) : Answer H :=
  withDevice s fun d => if d.configured then f d else .refused .notConfigured

/-- All 8 lines of the Device driven from a SegmentBitmask, and the operation's result (R110). -/
def driveAndReport (b : Mask) (r : Result) (s : State H) (d : Device H) : Answer H :=
  .next ((s.put (d.drive b)).report r)

/-- The SegmentBitmask of a resolved glyph: `compose(encode(addr), dot | force_dp)` (R110, R118). -/
def glyphMask (tables : Tables) (addr : GlyphAddr) (dot forceDp : Bool) : Mask :=
  compose (glyphPattern tables.glyphRom addr) (dpFlag dot forceDp)

end Sys2Proof.Machine
end

