-- ==== Sys2Proof/Machine/Configuration.lean ====
section
/-! DEFINITION. Machine/Configuration.lean: what brings a Device up and ends it: `construct` (R113), the operation
`CONFIGURE` (R115), and the host's discarding of a Device (R18, R170). -/

namespace Sys2Proof.Machine

variable {H : Type}

/-- `PIN[l] <- physical_pins[PERM[l]]` for each segment (R113). -/
def remap (pins : List H) (h : pins.length = Config.nseg) : Octet H :=
  Octet.ofFn fun l => pins[(perm l).val]'(h ▸ (perm l).isLt)

/-- The Device a successful `construct` leaves: pins remapped, no line configured, none written (R113, R19). -/
def newDevice (straps : Straps) (pins : List H) (h : pins.length = Config.nseg) : Device H :=
  { straps := straps, pin := remap pins h, mode := Octet.fill .unconf, line := Octet.fill .unwritten }

/-- `construct(physical_pins)` (R113). The pin count is checked before anything else (R146); handles that are not
free or not valid are refused (R114, R164, U6), and so is a build whose fixed list is ill-formed (R96). The order of the
refusals is a DESIGN CHOICE (log 11). -/
def construct [DecidableEq H] (straps : Straps) (pins : List H) (s : State H) : Answer H :=
  if h : pins.length = Config.nseg then
    if ¬ pins.Nodup then .refused .repeatedHandle
    else if ¬ HandlesFree pins s.owned then .refused .sharedHandle
    else if ¬ HandlesValid pins s.invalidHandles then .refused .invalidHandle
    else if ¬ FixedListWf straps.fixedCaseFold s.tables.fixedList then .refused .illFormedFixedList
    else .next ((s.add (newDevice straps pins h)).report .ok)
  else raise .wrongPinCount s

/-- `CONFIGURE`: every line in output-drive mode at the inactive level, in one transition; the same lines as
`drive(0x00)` (R115). DESIGN CHOICE, unsafe for an electrical observer (log 8). -/
def execConfigure (s : State H) : Answer H :=
  withDevice s fun d => driveAndReport 0x00 .ok s d.enableOutputs

/-- The host discards the Device in slot `k`: not an operation, nothing is written, no result (R18, R170). DESIGN CHOICE
(log 10): R18's chain reaches *dropped* from *configured*, and the model lets the host discard a Device it never
configured as well. -/
def drop (k : Nat) (s : State H) : Answer H :=
  match s.live? k with
  | some _ => .next (s.release k).silent
  | none => .refused .noDevice

end Sys2Proof.Machine
end

