-- ==== Sys2Proof/Machine/Glyphs.lean ====
section
/-! DEFINITION. Machine/Glyphs.lean: the operations that show a glyph of the ROM: `DISPLAY` (R118) and
`DISPLAY_HEX` (R119). -/

namespace Sys2Proof.Machine

variable {H : Type}

/-- What is done with a resolver's answer: an unsupported symbol is raised with nothing written, a resolved one is
driven on all 8 lines and `status` reported (R118, R119). -/
def showResolved (r : Resolution) (dot : Bool) (status : Result) (s : State H) (d : Device H) : Answer H :=
  match r with
  | .unsupported => raise .unsupported s
  | .resolved addr forceDp => driveAndReport (glyphMask s.tables addr dot forceDp) status s d

/-- `DISPLAY glyph, dot`: resolved by the Device's policy; the result after a write is by its straps (R118, R95). -/
def execDisplay (glyph : CharCode) (dot : Bool) (s : State H) : Answer H :=
  withConfigured s fun d =>
    showResolved (resolveChar s.tables d.straps glyph) dot (displayStatus d.straps) s d

/-- `DISPLAY_HEX value, dot`: the hex path under either policy; the parity strap does not apply (R119). -/
def execDisplayHex (value : HexValue) (dot : Bool) (s : State H) : Answer H :=
  withConfigured s fun d => showResolved (resolveHex value) dot .ok s d

end Sys2Proof.Machine
end

