-- ==== Sys2Proof/Machine/Lines.lean ====
section
/-! DEFINITION. Machine/Lines.lean: the operations that drive the lines without the glyph ROM: `CLEAR` (R116),
`RENDER` (R117) and `DISPLAY_JUST_DOT` (R120). -/

namespace Sys2Proof.Machine

variable {H : Type}

/-- `CLEAR`: drive(0x00); the mode is not written (R116). -/
def execClear (s : State H) : Answer H := withConfigured s fun d => driveAndReport 0x00 .ok s d

/-- `RENDER bitmask`: drive(bitmask), DP from its bit 7 (R117, R60). -/
def execRender (bitmask : Mask) (s : State H) : Answer H := withConfigured s fun d => driveAndReport bitmask .ok s d

/-- `DISPLAY_JUST_DOT`: drive(0x80); no resolver runs (R120). -/
def execDisplayJustDot (s : State H) : Answer H := withConfigured s fun d => driveAndReport 0x80 .ok s d

end Sys2Proof.Machine
end

