-- ==== Sys2Proof/Syntax.lean ====
section
/-! DEFINITION. Syntax.lean: the operations that have a command word, one constructor for each row of
spec/opcode_table.json (R57). A field an operation ignores (R60) is no part of its syntax. -/

namespace Sys2Proof

inductive Instr where
  /-- `CONFIGURE` (R115). -/
  | configure
  /-- `CLEAR` (R116). -/
  | clear
  /-- `RENDER bitmask` (R117). -/
  | render (bitmask : Mask)
  /-- `DISPLAY glyph, dot` (R118). -/
  | display (glyph : CharCode) (dot : Bool)
  /-- `DISPLAY_HEX value, dot` (R119). -/
  | displayHex (value : HexValue) (dot : Bool)
  /-- `DISPLAY_JUST_DOT` (R120). -/
  | displayJustDot
deriving DecidableEq, Repr

end Sys2Proof
end

