-- ==== Sys2Proof/Machine/Dispatch.lean ====
section
/-! DEFINITION. Machine/Dispatch.lean: one arm per operation of the command map (R57). -/

namespace Sys2Proof.Machine

def exec (i : Instr) (s : State) : Host.Outcome State Fault Refusal :=
  match i with
  | .configure => Sys2Proof.Machine.execConfigure s
  | .clear => Sys2Proof.Machine.execClear s
  | .render bitmask => Sys2Proof.Machine.execRender bitmask s
  | .display glyph dot => Sys2Proof.Machine.execDisplay glyph dot s
  | .displayHex value dot => Sys2Proof.Machine.execDisplayHex value dot s
  | .displayJustDot => Sys2Proof.Machine.execDisplayJustDot s

end Sys2Proof.Machine
end

