-- ==== Sys2Proof/Decode.lean ====
section
/-! DEFINITION. Decode.lean: the command word of R56 and R57: the decoder, total on every 12-bit word, and the
encoder, which writes ignored bits as 0. -/

namespace Sys2Proof

/-- `op`: bits 11:9 of a command word (R56). -/
def opField (w : CommandWord) : BitVec 3 := w.extractLsb' 9 3

/-- `dot`: bit 8 of a command word (R56). -/
def dotField (w : CommandWord) : Bool := w.getLsbD 8

/-- `arg`: bits 7:0 of a command word (R56). -/
def argField (w : CommandWord) : BitVec 8 := w.extractLsb' 0 8

/-- Why a command word is no operation. -/
inductive DecodeError where
  /-- `op` is 0b110 or 0b111, which select no operation (R59). -/
  | reservedOp (op : BitVec 3)
deriving DecidableEq, Repr

/-- The operation map of R57. Fields an operation does not use are ignored (R60). -/
def decode (w : CommandWord) : Except DecodeError Instr :=
  match opField w with
  | 0b000#3 => .ok .configure
  | 0b001#3 => .ok .clear
  | 0b010#3 => .ok (.render (argField w))
  | 0b011#3 => .ok (.display (argField w) (dotField w))
  | 0b100#3 => .ok (.displayHex (argField w) (dotField w))
  | 0b101#3 => .ok .displayJustDot
  | op => .error (.reservedOp op)

/-- A command word from its three fields (R56). -/
def commandWord (op : BitVec 3) (dot : Bool) (arg : BitVec 8) : CommandWord :=
  op ++ (BitVec.ofBool dot ++ arg)

/-- The canonical command word of an operation: ignored bits 0 (R57). -/
def encode : Instr → CommandWord
  | .configure => commandWord 0b000 false 0
  | .clear => commandWord 0b001 false 0
  | .render b => commandWord 0b010 false b
  | .display c dot => commandWord 0b011 dot c
  | .displayHex v dot => commandWord 0b100 dot v
  | .displayJustDot => commandWord 0b101 false 0

/-- The bits of a command word an operation uses: `op` always, `dot` and `arg` as R57's table says. -/
def usedBits : Instr → CommandWord
  | .configure => 0xE00
  | .clear => 0xE00
  | .render _ => 0xEFF
  | .display _ _ => 0xFFF
  | .displayHex _ _ => 0xFFF
  | .displayJustDot => 0xE00

/-- The instruction in the word whose bits are `w`, bit 0 the least significant. The command port is 12 bits wide:
`nbits` rounds that up to whole bytes, and bits above bit 11 are no part of the word. -/
def decodeTableWord (_nbits w : Nat) : Option Instr := (decode (BitVec.ofNat 12 w)).toOption

end Sys2Proof
end

