-- ==== Sys2Proof/Machine/Issue.lean ====
section
/-! DEFINITION. Machine/Issue.lean: what a step does around an operation: reading the command word, idling, and
bringing a Device up so that a command word can be the next thing to run (R161). -/

namespace Sys2Proof.Machine

variable {H : Type}

/-- The operation in an issued command word, or the refusal of a reserved one (R57, R59). -/
def readCommand (w : CommandWord) : Except Refusal Instr :=
  match decode w with
  | .ok i => .ok i
  | .error (.reservedOp op) => .error (.reservedOperation op)

/-- Nothing is issued to a Device in this step: every line holds its level (R151, R170), also while the host uses
the character LCD (R152). -/
def idle (s : State H) : Answer H := .next s.silent

/-- One step over any handle type, given what runs an operation: the host's next input takes its full effect; with none
left the machine idles (R40, R169, R170). -/
def stepWith [DecidableEq H] (run : Instr → State H → Answer H) (s : State H) : Answer H :=
  match s.pending with
  | [] => idle s
  | .construct straps pins :: rest => construct straps pins (s.consume rest)
  | .command k w :: rest =>
    match readCommand w with
    | .ok i => run i (s.issue k rest)
    | .error r => .refused r
  | .drop k :: rest => drop k (s.consume rest)
  | .peripheral :: rest => idle (s.consume rest)

/-- The handles of a module, in silkscreen order, named by package pin (R113's example). -/
def moduleHandles : List Handle := (List.finRange 8).map fun p => ⟨packagePin p⟩

/-- The Device that `construct` leaves for such a module, under the range policy with every strap at its default. -/
def moduleDevice : Device := newDevice { policy := .range } moduleHandles rfl

/-- The first slot that holds a live Device. -/
def State.liveSlot? (s : State H) : Option Nat :=
  (List.range s.slots.length).find? fun k => (s.live? k).isSome

/-- The state in which the target is a live Device: as it is where it already is one, else the first there is, and
where no Device exists, a new one (R161; log 7). -/
def State.aimed (s : State) : State :=
  match s.device?, s.liveSlot? with
  | some _, _ => s
  | none, some k => { s with target := k }
  | none, none => { s.add moduleDevice with target := s.slots.length }

/-- The state in which the target is a configured Device (R161; log 7). -/
def State.broughtUp (s : State) : State :=
  match s.aimed.device? with
  | some d => if d.configured then s.aimed else s.aimed.put (d.enableOutputs.drive 0x00)
  | none => s.aimed

end Sys2Proof.Machine
end

