-- ==== Sys2Proof/Machine/Step.lean ====
section
/-! DEFINITION. Machine/Step.lean: one step is one thing the host does (R40, R169). -/

namespace Sys2Proof.Machine

/-- One step (R40, R169): `stepWith` at the handle type the machine is run at, each operation run by `exec`. -/
def step (s : State) : Host.Outcome State Fault Refusal := stepWith exec s

/-- The host issues the command word `w` next, to a Device that is configured (log 7). -/
def State.withFetchWord (s : State) (_nbits w : Nat) : State :=
  { s.broughtUp with pending := .command s.broughtUp.target (BitVec.ofNat 12 w) :: s.pending }

end Sys2Proof.Machine
end

