-- ==== Sys2Proof/Machine/Generic.lean ====
section
/-! DEFINITION. Machine/Generic.lean: the machine at any handle type (R11, D19). `exec` and `step` are it at `Handle`,
as `Obligations.HandlesAreOpaque` says. -/

namespace Sys2Proof.Machine

variable {H : Type}

/-- The operations, over any handle type. -/
def operation (i : Instr) (s : State H) : Answer H :=
  match i with
  | .configure => execConfigure s
  | .clear => execClear s
  | .render bitmask => execRender bitmask s
  | .display glyph dot => execDisplay glyph dot s
  | .displayHex value dot => execDisplayHex value dot s
  | .displayJustDot => execDisplayJustDot s

/-- One step, over any handle type with decidable equality. -/
def stepAt [DecidableEq H] (s : State H) : Answer H := stepWith operation s

end Sys2Proof.Machine
end

