-- ==== Sys2Proof/Machine/Observe.lean ====
section
/-! DEFINITION. Machine/Observe.lean: the observables of R23, which no operation of the hardware reads. They have a
value only where `configured` holds and the cell is written. -/

namespace Sys2Proof.Machine

variable {H : Type}

/-- The level a cell holds, none while it is unwritten (R13, R19). -/
def lineLevel : Line → Option Level
  | .unwritten => none
  | .driven v => some v

/-- The level on the line of segment `l`, defined only when `configured` holds (R23). -/
def Device.level (d : Device H) (l : Segment) : Option Level :=
  if d.configured then lineLevel (d.line.get l) else none

/-- `lit(l)`: segment `l` is lit, that is, its line is `LOW` (R23, R166). -/
def Device.lit (d : Device H) (l : Segment) : Option Bool := (d.level l).map fun v => decide (v = Config.active)

/-- `pad(p) = LINE[INVPERM[p]]`: the level at silkscreen position `p` (R23). -/
def Device.pad (d : Device H) (p : Position) : Option Level := d.level (invPerm p)

/-- `pad_of(h) = LINE[l]` where `PIN[l] = h`: the level on the line with handle `h` (R23). -/
def Device.padOf [DecidableEq H] (d : Device H) (h : H) : Option Level :=
  match Segment.list.find? fun l => decide (d.pin.get l = h) with
  | some l => d.level l
  | none => none

/-- The level on the line with handle `h`, whichever live Device owns it (R23, R114). -/
def State.padOf [DecidableEq H] (s : State H) (h : H) : Option Level :=
  s.liveDevices.findSome? fun d => d.padOf h

/-- The phases a Device passes through (R18). -/
inductive Phase where
  | absent | constructed | configured | dropped
deriving DecidableEq, Repr

/-- The place of a phase in the order of R18. -/
def phaseRank : Phase → Nat
  | .absent => 0
  | .constructed => 1
  | .configured => 2
  | .dropped => 3

/-- The phase of the Device in slot `k` (R18). -/
def State.phase (s : State H) (k : Nat) : Phase :=
  match s.slots[k]? with
  | none => .absent
  | some (.live d) => if d.configured then .configured else .constructed
  | some .dropped => .dropped

end Sys2Proof.Machine
end

