-- ==== Sys2Proof/Safety.lean ====
section
/-! DEFINITION. Safety.lean: the terms claims use: which operation is legal in which phase (R163), the invariant of
the machine, and the terms of the statements. -/

namespace Sys2Proof

open Sys2Proof.Machine

variable {H : Type}

/-- Whether the spec gives a runtime operation a meaning where it is issued: `CONFIGURE` on a constructed Device,
every other on a configured one (R163). -/
def Legal (i : Instr) (s : State H) : Prop :=
  match i with
  | .configure => ∃ d, s.device? = some d
  | .clear => ∃ d, s.device? = some d ∧ d.configured = true
  | .render _ => ∃ d, s.device? = some d ∧ d.configured = true
  | .display _ _ => ∃ d, s.device? = some d ∧ d.configured = true
  | .displayHex _ _ => ∃ d, s.device? = some d ∧ d.configured = true
  | .displayJustDot => ∃ d, s.device? = some d ∧ d.configured = true

/-- A Device has written no line and configured none, or has configured and written all eight (R18, R19, R36). -/
abbrev DeviceCoherent (d : Device H) : Prop :=
  (d.mode = Octet.fill .unconf ∧ d.line = Octet.fill .unwritten) ∨
  (d.mode = Octet.fill .output ∧ ∀ l ∈ d.line.toList, l ≠ .unwritten)

/-- A Device is well-formed under the shared tables and the platform's invalid handles: coherent, its handles distinct
(R114) and valid (R164), and its build not one that R96 rejects. -/
abbrev DeviceWf (tables : Tables) (invalid : List H) (d : Device H) : Prop :=
  DeviceCoherent d ∧ d.pin.toList.Nodup ∧ HandlesValid d.pin.toList invalid ∧
    FixedListWf d.straps.fixedCaseFold tables.fixedList

/-- The invariant: the ROM is admissible (R72 to R79), every live Device is well-formed, and no two live Devices
share a handle (R114). -/
abbrev MachineInv (s : State H) : Prop :=
  RomAdmissible s.tables.glyphRom ∧
  (∀ d ∈ s.liveDevices, DeviceWf s.tables s.invalidHandles d) ∧
  s.liveDevices.Pairwise fun d e => ∀ h ∈ d.pin.toList, h ∉ e.pin.toList

/-- A list of operations issued one after the other to the same Device: each takes full effect before the next
begins (R40). -/
def runOps : List Instr → State → Answer
  | [], s => .next s
  | i :: rest, s =>
    match exec i s with
    | .next t => runOps rest t
    | .fault r => .fault r
    | .refused r => .refused r

/-! The handle type is a parameter (R11): the machine carried from one handle type to another. -/

variable {K : Type}

/-- The Device with its handles renamed. -/
def Machine.Device.rename (f : H → K) (d : Device H) : Device K :=
  { straps := d.straps, pin := d.pin.map f, mode := d.mode, line := d.line }

/-- The slot with the handles of its Device renamed. -/
def Machine.Slot.rename (f : H → K) : Slot H → Slot K
  | .live d => .live (d.rename f)
  | .dropped => .dropped

/-- The input with the handles it supplies renamed. -/
def Machine.HostInput.rename (f : H → K) : HostInput H → HostInput K
  | .construct straps pins => .construct straps (pins.map f)
  | .command k w => .command k w
  | .drop k => .drop k
  | .peripheral => .peripheral

/-- The state with every handle in it renamed. -/
def Machine.State.rename (f : H → K) (s : State H) : State K :=
  { tables := s.tables, invalidHandles := s.invalidHandles.map f, slots := s.slots.map (Slot.rename f),
    target := s.target, result := s.result, pending := s.pending.map (HostInput.rename f) }

/-- The answer with every handle in it renamed. -/
def renameAnswer (f : H → K) : Answer H → Answer K
  | .next t => .next (t.rename f)
  | .fault r => .fault r
  | .refused r => .refused r

/-! Terms of the statements, written out from the spec and not from the model's own operations. -/

/-- The level R117 gives a line from its bit: `LOW` when the bit is 1, `HIGH` when it is 0. -/
def bitLevel (bit : Bool) : Level := if bit then .low else .high

/-- The 8 level cells a driven SegmentBitmask leaves, as R117 writes them out: A from bit 6 down to G from bit 0, DP
from bit 7. -/
def drivenLines (b : Mask) : Octet Line :=
  { a := .driven (bitLevel (b.getLsbD 6)), b := .driven (bitLevel (b.getLsbD 5)),
    c := .driven (bitLevel (b.getLsbD 4)), d := .driven (bitLevel (b.getLsbD 3)),
    e := .driven (bitLevel (b.getLsbD 2)), f := .driven (bitLevel (b.getLsbD 1)),
    g := .driven (bitLevel (b.getLsbD 0)), dp := .driven (bitLevel (b.getLsbD 7)) }

/-- The SegmentBitmask of a ROM word with the decimal point: `zext_8(pattern) | (zext_8(dp) << 7)` (R52). -/
def dottedMask (rom : GlyphRom) (addr : GlyphAddr) (dp : Bool) : Mask :=
  (rom[addr.val]).zeroExtend 8 ||| ((BitVec.ofBool dp).zeroExtend 8 <<< 7)

/-- The state in which the Device issued to is `d` and the step reports `r`; nothing else differs from `s`. -/
def shownAs (s : State H) (d : Device H) (r : Result) : State H :=
  { s with slots := s.slots.set s.target (.live d), result := some r }

/-- What the data multiplexer sends to the lines for an operation on a Device with these straps, none where the
operation raises (R110). -/
def muxOutput (tables : Tables) (straps : Straps) : Instr → Option Mask
  | .configure => some 0x00
  | .clear => some 0x00
  | .render b => some b
  | .display c dot =>
    match resolveChar tables straps c with
    | .resolved addr forceDp => some (dottedMask tables.glyphRom addr (dot || forceDp))
    | .unsupported => none
  | .displayHex v dot =>
    match resolveHex v with
    | .resolved addr forceDp => some (dottedMask tables.glyphRom addr (dot || forceDp))
    | .unsupported => none
  | .displayJustDot => some 0x80

end Sys2Proof
end

