-- ==== Sys2Proof/Certificates/Slice0/Obligations.lean ====
section
/-! DEFINITION. Certificates/Slice0/Obligations.lean: the statements for the provers. They are about every state,
every table and every strap; the default ROM and list are named where a statement rests on them. -/

open Sys2Proof Sys2Proof.Machine

/-! ### The command word -/

/-- R56, R57: no bit of an encoding is dropped. The layout is the spec's decision (D2, log 13). -/
def Obligations.DecodeOfEncodeIsIdentity : Prop :=
  ∀ i : Instr, decode (encode i) = .ok i

/-- R57, R60: a word that decodes to an operation is the operation's canonical word but for the ignored bits. The
layout and the ignored fields are the spec's decisions (D2, D3, log 13). -/
def Obligations.DecodedWordIsCanonicalOnUsedBits : Prop :=
  ∀ (w : CommandWord) (i : Instr), decode w = .ok i → encode i = w &&& usedBits i

/-- R60, which the spec marks as its own decision (D3, D22; log 13): fields an operation does not use are ignored;
RENDER takes DP from bit 7 of arg, never from dot; whether a word is an operation is decided by bits 11:9 only. -/
def Obligations.IgnoredFieldsMakeNoDifference : Prop :=
  (∀ w w' : CommandWord, opField w = opField w' → opField w ∈ [0b000#3, 0b001#3, 0b101#3] →
    decode w = decode w' ∧
    ∀ (s : State) k rest, step { s with pending := .command k w :: rest } =
      step { s with pending := .command k w' :: rest }) ∧
  (∀ w w' : CommandWord, opField w = 0b010#3 → opField w' = 0b010#3 → argField w = argField w' →
    decode w = decode w' ∧
    ∀ (s : State) k rest, step { s with pending := .command k w :: rest } =
      step { s with pending := .command k w' :: rest }) ∧
  (∀ (w : CommandWord) (s : State) (d : Device) k rest, opField w = 0b010#3 → s.live? k = some d →
    d.configured = true → ∃ t d', step { s with pending := .command k w :: rest } = .next t ∧
      t.live? k = some d' ∧ d'.line.dp = .driven (bitLevel (w.getLsbD 7))) ∧
  (∀ w w' : CommandWord, opField w = opField w' → ((∃ i, decode w = .ok i) ↔ ∃ i, decode w' = .ok i))

/-- R59: op 6 and 7 select no operation and are refused, every other op selects one (the spec's decision D4, log 13).
-/
def Obligations.ReservedOpsAreRefused : Prop :=
  (∀ w : CommandWord, (∃ i, decode w = .ok i) ↔ opField w ≠ 6 ∧ opField w ≠ 7) ∧
  (∀ (s : State) (k : Nat) (w : CommandWord) (rest : List HostInput),
    s.pending = .command k w :: rest → opField w = 6 ∨ opField w = 7 →
    step s = .refused (.reservedOperation (opField w)))

/-- 95_test_vectors.md 2.1: words written out from R57's patterns (the spec's decision D2, log 13). -/
def Obligations.SpecWordsDecode : Prop :=
  decode 0b000000000000 = .ok .configure ∧ decode 0b000111111111 = .ok .configure ∧
  decode 0b001000000000 = .ok .clear ∧ decode 0b001110100101 = .ok .clear ∧
  decode 0b010001111110 = .ok (.render 0x7E) ∧ decode 0b010101111110 = .ok (.render 0x7E) ∧
  decode 0b011000110000 = .ok (.display 0x30 false) ∧ decode 0b011100110000 = .ok (.display 0x30 true) ∧
  decode 0b100000001010 = .ok (.displayHex 10 false) ∧ decode 0b100100001111 = .ok (.displayHex 15 true) ∧
  decode 0b101000000000 = .ok .displayJustDot ∧ decode 0b101111111111 = .ok .displayJustDot ∧
  decode 0b110000000000 = .error (.reservedOp 6) ∧ decode 0b111111111111 = .error (.reservedOp 7)

/-- A step whose next input is a command word that decodes runs exactly that operation, on the Device the word is
issued to, with the word used up. The queue of inputs and the slot number are the model's (log 4, log 7). -/
def Obligations.StepRunsIssuedCommand : Prop :=
  ∀ (s : State) (k : Nat) (w : CommandWord) (rest : List HostInput) (i : Instr),
    s.pending = .command k w :: rest → decode w = .ok i →
    step s = exec i { s with target := k, pending := rest }

/-! ### Symbol resolution -/

/-- R91 to R94: the range decoder on all 256 codes, by class, and how many it resolves. Codes and addresses are
the spec's decisions (D5, D8, log 13). -/
def Obligations.RangeDecoderMap : Prop :=
  (∀ n : Fin 10, resolveRange (BitVec.ofNat 8 (0x30 + n.val)) = .resolved ⟨n.val, by omega⟩ false) ∧
  (∀ n : Fin 26, resolveRange (BitVec.ofNat 8 (0x41 + n.val)) = .resolved ⟨10 + n.val, by omega⟩ false ∧
    resolveRange (BitVec.ofNat 8 (0x61 + n.val)) = .resolved ⟨10 + n.val, by omega⟩ false) ∧
  (resolveRange 0x20 = .resolved 36 false ∧ resolveRange 0x2D = .resolved 37 false ∧
    resolveRange 0x2E = .resolved 38 true ∧ resolveRange 0x2A = .resolved 39 false ∧
    resolveRange 0x5F = .resolved 40 false) ∧
  ((List.range 256).filter fun n => decide (resolveRange (BitVec.ofNat 8 n) ≠ .unsupported)).length = 67

/-- R94: the five specials resolve to blank, dash, dot, star and underscore, in that pairing. The pairing is the
spec's own reading, derived from the two lists; the addresses 36 to 40 are its decision (D8, log 13). -/
def Obligations.SpecialsResolveInPairing : Prop :=
  [0x20#8, 0x2D#8, 0x2E#8, 0x2A#8, 0x5F#8].map resolveRange =
    [.resolved 36 false, .resolved 37 false, .resolved 38 true, .resolved 39 false, .resolved 40 false]

/-- R96: on a well-formed list the search answers what the range decoder answers for the entry with the character's
key, and `Unsupported` exactly where there is none. -/
def Obligations.FixedSearchAnswersMatchingEntry : Prop :=
  ∀ (fold : Bool) (list : List CharCode) (c : CharCode), FixedListWf fold list →
    (∀ e ∈ list, searchKey fold e = searchKey fold c → resolveFixed fold list c = resolveRange e) ∧
    (resolveFixed fold list c = .unsupported ↔ ∀ e ∈ list, searchKey fold e ≠ searchKey fold c)

/-- R101: the match is unique, and the result does not depend on the order of visiting. -/
def Obligations.FixedSearchIsOrderFree : Prop :=
  ∀ (fold : Bool) (list list' : List CharCode) (c : CharCode), FixedListWf fold list → list.Perm list' →
    resolveFixed fold list c = resolveFixed fold list' c ∧
    ∀ e ∈ list, ∀ e' ∈ list, searchKey fold e = searchKey fold c → searchKey fold e' = searchKey fold c → e = e'

/-- R97: with folding a lower-case letter is found as its upper case is, in any list; without it only the exact
code matches. -/
def Obligations.FixedCaseFoldStrap : Prop :=
  (∀ (list : List CharCode) (n : Fin 26),
    resolveFixed true list (BitVec.ofNat 8 (0x61 + n.val)) = resolveFixed true list (BitVec.ofNat 8 (0x41 + n.val))) ∧
  (∀ (list : List CharCode) (c : CharCode), FixedListWf false list →
    (resolveFixed false list c ≠ .unsupported ↔ c ∈ list))

/-- R98: under the default list (log 1) position i holds the glyph address i up to 18 and 38 at 19; 29 codes are
supported with folding, 20 without. -/
def Obligations.DefaultFixedListSupport : Prop :=
  (∀ i : Fin 19, resolveFixed true defaultFixedList defaultFixedList[i.val]! = .resolved ⟨i.val, by omega⟩ false) ∧
  resolveFixed true defaultFixedList defaultFixedList[19]! = .resolved 38 true ∧
  ((List.range 256).filter fun n =>
    decide (resolveFixed true defaultFixedList (BitVec.ofNat 8 n) ≠ .unsupported)).length = 29 ∧
  ((List.range 256).filter fun n =>
    decide (resolveFixed false defaultFixedList (BitVec.ofNat 8 n) ≠ .unsupported)).length = 20

/-- R99: the hex path on all 256 values; the values other than 10 are the spec's decision (D16, log 13). -/
def Obligations.HexPathMap : Prop :=
  (∀ n : Fin 16, resolveHex (BitVec.ofNat 8 n.val) = .resolved ⟨n.val, by omega⟩ false) ∧
  (∀ v : HexValue, 15 < v.toNat → resolveHex v = .unsupported)

/-- R100, which the spec marks as its own decision (D10; log 13): `force_dp` is 1 for the dot glyph and 0 for every
other, whichever resolver answers; DISPLAY drives DP with `dot | force_dp`; `DISPLAY '.'` shows 0x80 whether `dot` is
0 or 1. -/
def Obligations.ForceDpOnlyForDotGlyph : Prop :=
  (∀ (tables : Tables) (straps : Straps) (c : CharCode) addr fdp,
    resolveChar tables straps c = .resolved addr fdp → (fdp = true ↔ addr = 38)) ∧
  (∀ (v : HexValue) addr fdp, resolveHex v = .resolved addr fdp → (fdp = true ↔ addr = 38)) ∧
  (∀ (s : State) (d : Device) (c : CharCode) (dot : Bool) addr fdp, s.device? = some d → d.configured = true →
    resolveChar s.tables d.straps c = .resolved addr fdp →
    ∃ t d', exec (.display c dot) s = .next t ∧ t.device? = some d' ∧
      d'.line.dp = .driven (bitLevel (dot || fdp))) ∧
  (∀ (s : State) (d : Device) (dot : Bool), s.device? = some d → d.configured = true →
    RomAdmissible s.tables.glyphRom → resolveChar s.tables d.straps 0x2E ≠ .unsupported →
    ∃ t, exec (.display 0x2E dot) s = .next t ∧ t.device? = some { d with line := drivenLines 0x80 })

/-! ### The glyph ROM -/

/-- R72 to R79: the default ROM (log 1) meets every constraint on an admissible one. -/
def Obligations.DefaultRomAdmissible : Prop := RomAdmissible defaultRom

/-- R83, on the default ROM and the patterns it supplies (log 1): in it two addresses hold the same pattern exactly
where both are H, K, X; U, V; 2, Z; 5, S; or M, W, blank, dot; and what those patterns are. -/
def Obligations.DefaultRomSharedPatterns : Prop :=
  (∀ a b : GlyphAddr, a ≠ b → (defaultRom[a.val] = defaultRom[b.val] ↔
    ∃ group ∈ [[17, 20, 33], [30, 31], [2, 35], [5, 28], [22, 32, 36, 38]], a.val ∈ group ∧ b.val ∈ group)) ∧
  (defaultRom[17] = 0x37 ∧ defaultRom[30] = 0x3E ∧ defaultRom[2] = 0x6D ∧ defaultRom[5] = 0x5B ∧
    defaultRom[22] = 0x00)

/-- R52: concatenation and OR give the same SegmentBitmask, and the dot differs in bit 7 only. -/
def Obligations.ComposePlacesDotInBitSeven : Prop :=
  ∀ (pattern : Pattern),
    (∀ dp : Bool, compose pattern dp = pattern.zeroExtend 8 ||| ((BitVec.ofBool dp).zeroExtend 8 <<< 7)) ∧
    compose pattern true ^^^ compose pattern false = 0x80

/-- R81 and what R119 draws from it: hex value 10 and letter A read the same ROM word, for every ROM, so both
operations leave the same machine on a range-policy Device without the parity strap. The address 10 and DISPLAY_HEX's
values rest on the spec's decisions D8 and D16 (log 13). -/
def Obligations.HexTenShowsLetterA : Prop :=
  resolveHex 10 = resolveRange 0x41 ∧ resolveRange 0x41 = .resolved 10 false ∧
  ∀ (s : State) (d : Device) (dot : Bool), s.device? = some d → d.straps.policy = .range →
    d.straps.rangeStatusParity = false → exec (.displayHex 10 dot) s = exec (.display 0x41 dot) s

/-- R74 to R77 as R167 draws on them: under the range policy, for every admissible ROM, U and V, H and K and X, 2 and
Z leave the same machine, and so do M, W and the space. -/
def Obligations.SharedGlyphsLeaveSamePicture : Prop :=
  ∀ (s : State) (d : Device) (dot : Bool), s.device? = some d → d.straps.policy = .range →
    RomAdmissible s.tables.glyphRom →
    exec (.display 0x56 dot) s = exec (.display 0x55 dot) s ∧
    exec (.display 0x4B dot) s = exec (.display 0x48 dot) s ∧
    exec (.display 0x58 dot) s = exec (.display 0x48 dot) s ∧
    exec (.display 0x5A dot) s = exec (.display 0x32 dot) s ∧
    exec (.display 0x4D dot) s = exec (.display 0x20 dot) s ∧
    exec (.display 0x57 dot) s = exec (.display 0x20 dot) s

/-! ### The pin-remapper and construction -/

/-- R112, derived by the spec from R111: PERM, INVPERM, that each undoes the other, the one fixed point, the cycle
structure, and that construction permutes by PERM. -/
def Obligations.PermutationFromSilkscreenToLogical : Prop :=
  Segment.list.map perm = [5, 4, 2, 1, 0, 6, 7, 3] ∧
  (List.finRange 8).map invPerm = [.e, .d, .c, .dp, .b, .a, .f, .g] ∧
  (∀ l, invPerm (perm l) = l) ∧ (∀ p, perm (invPerm p) = p) ∧
  Function.Bijective perm ∧
  (∀ l ∈ Segment.list, (perm l).val = Segment.list.idxOf l ↔ l = .c) ∧
  ([0, 5, 6, 7, 3, 1, 4].map fun n => (perm (Segment.list.getD n .c)).val) = [5, 6, 7, 3, 1, 4, 0] ∧
  (∀ (pins : List Handle) (h : pins.length = 8) (l : Segment),
    (remap pins h).get l = pins[(perm l).val]'(by rw [h]; exact (perm l).isLt))

/-- R113, R111, R19: 8 distinct, free and valid handles in silkscreen order make a Device with A on position 5, B on
4, C on 2, D on 1, E on 0, F on 6, G on 7, DP on 3, unconfigured and unwritten. That the new Device stands in the next
slot is the model's (log 4); UNCONF and unwritten are the spec's decision (D18, log 13). -/
def Obligations.ConstructRemapsPins : Prop :=
  ∀ (s : State) (straps : Straps) (rest : List HostInput) (p0 p1 p2 p3 p4 p5 p6 p7 : Handle),
    s.pending = .construct straps [p0, p1, p2, p3, p4, p5, p6, p7] :: rest →
    HandlesFree [p0, p1, p2, p3, p4, p5, p6, p7] s.owned → HandlesValid [p0, p1, p2, p3, p4, p5, p6, p7] s.invalidHandles →
    FixedListWf straps.fixedCaseFold s.tables.fixedList →
    step s = .next { s with
      pending := rest,
      result := some .ok,
      slots := s.slots ++ [.live
        { straps := straps,
          pin := { a := p5, b := p4, c := p2, d := p1, e := p0, f := p6, g := p7, dp := p3 },
          mode := Octet.fill .unconf,
          line := Octet.fill .unwritten }] }

/-- R141: any other pin count raises WRONG_PIN_COUNT, no Device comes into being and none is written; with 8 pins,
and by a runtime operation, it is never reported. -/
def Obligations.WrongPinCountMakesNoDevice : Prop :=
  (∀ (s : State) (straps : Straps) (pins : List Handle) (rest : List HostInput),
    s.pending = .construct straps pins :: rest → pins.length ≠ 8 →
    step s = .next { s with pending := rest, result := some .wrongPinCount }) ∧
  (∀ (s t : State) (straps : Straps) (pins : List Handle) (rest : List HostInput),
    s.pending = .construct straps pins :: rest → pins.length = 8 → step s = .next t →
    t.result ≠ some .wrongPinCount) ∧
  (∀ (i : Instr) (s t : State), exec i s = .next t → t.result ≠ some .wrongPinCount)

/-- R114, R164 (U6) and R96: 8 handles with a repetition, or distinct with one that a live Device owns, or free with
one that is not valid, or free and valid under an ill-formed fixed list, are refused, each by its name. Which name
comes first where several grounds hold, and that an ill-formed list is refused under either policy, are the model's
choices (log 11); that such handles are refused at all is the spec's decision (D20, log 13). -/
def Obligations.UnfitBuildsAreRefused : Prop :=
  ∀ (s : State) (straps : Straps) (pins : List Handle) (rest : List HostInput),
    s.pending = .construct straps pins :: rest → pins.length = 8 →
    (¬ pins.Nodup → step s = .refused .repeatedHandle) ∧
    (pins.Nodup → (∃ h ∈ pins, h ∈ s.owned) → step s = .refused .sharedHandle) ∧
    (HandlesFree pins s.owned → ¬ HandlesValid pins s.invalidHandles → step s = .refused .invalidHandle) ∧
    (HandlesFree pins s.owned → HandlesValid pins s.invalidHandles → ¬ FixedListWf straps.fixedCaseFold s.tables.fixedList →
      step s = .refused .illFormedFixedList)

/-! ### The six operations complete -/

/-- R115: CONFIGURE on any constructed Device: every MODE `OUTPUT`, every LINE `HIGH`, result OK, nothing else. That
mode and level change in one transition is the spec's decision (D21, log 8). -/
def Obligations.ConfigureBlanksDevice : Prop :=
  ∀ (s : State) (d : Device), s.device? = some d →
    exec .configure s =
      .next (shownAs s { d with mode := Octet.fill .output, line := Octet.fill (.driven .high) } .ok)

/-- R162: CONFIGURE issued again re-blanks and changes nothing else. -/
def Obligations.ConfigureAgainOnlyReblanks : Prop :=
  ∀ (s : State) (d : Device), s.device? = some d → d.configured = true →
    exec .configure s = .next (shownAs s { d with line := Octet.fill (.driven .high) } .ok)

/-- R116: CLEAR on a configured Device: every LINE `HIGH` whatever was shown, MODE as it was, result OK; twice is the
same as once; the same effect as CONFIGURE. -/
def Obligations.ClearDarkensAllLines : Prop :=
  ∀ (s : State) (d : Device), s.device? = some d → d.configured = true →
    exec .clear s = .next (shownAs s { d with line := Octet.fill (.driven .high) } .ok) ∧
    runOps [.clear, .clear] s = runOps [.clear] s ∧
    exec .clear s = exec .configure s

/-- R117: RENDER drives each line from its bit, `LOW` for 1; result OK for every bitmask; nothing else changes; twice
is the same as once. -/
def Obligations.RenderDrivesBitmask : Prop :=
  ∀ (b : Mask) (s : State) (d : Device), s.device? = some d → d.configured = true →
    exec (.render b) s = .next (shownAs s { d with line := drivenLines b } .ok) ∧
    runOps [.render b, .render b] s = runOps [.render b] s

/-- R118, R110, R95: DISPLAY of a resolved character drives `{dot | force_dp, GLYPH_ROM[addr]}`; the result is
UNSUPPORTED only for a range-policy Device with the parity strap. -/
def Obligations.DisplayShowsResolvedGlyph : Prop :=
  ∀ (c : CharCode) (dot : Bool) (s : State) (d : Device) (addr : GlyphAddr) (fdp : Bool),
    s.device? = some d → d.configured = true → resolveChar s.tables d.straps c = .resolved addr fdp →
    exec (.display c dot) s = .next (shownAs s
      { d with line := drivenLines (dottedMask s.tables.glyphRom addr (dot || fdp)) }
      (if d.straps.policy = .range ∧ d.straps.rangeStatusParity = true then .unsupported else .ok))

/-- R118, R142: DISPLAY of an unsupported character reports UNSUPPORTED and changes nothing. -/
def Obligations.DisplayRejectsUnsupported : Prop :=
  ∀ (c : CharCode) (dot : Bool) (s : State) (d : Device), s.device? = some d → d.configured = true →
    resolveChar s.tables d.straps c = .unsupported →
    exec (.display c dot) s = .next { s with result := some .unsupported }

/-- R119: DISPLAY_HEX of 0..15 drives `compose(GLYPH_ROM[v], dot)` and reports OK, under every policy and strap. The
values other than 10 rest on the spec's decision D16 (log 13). -/
def Obligations.DisplayHexShowsDigit : Prop :=
  ∀ (v : HexValue) (dot : Bool) (s : State) (d : Device) (hv : v.toNat ≤ 15),
    s.device? = some d → d.configured = true →
    exec (.displayHex v dot) s = .next (shownAs s
      { d with line := drivenLines (dottedMask s.tables.glyphRom ⟨v.toNat, by omega⟩ dot) } .ok)

/-- R119: DISPLAY_HEX of 16..255 reports UNSUPPORTED and changes nothing. -/
def Obligations.DisplayHexRejectsAboveFifteen : Prop :=
  ∀ (v : HexValue) (dot : Bool) (s : State) (d : Device), 15 < v.toNat →
    s.device? = some d → d.configured = true →
    exec (.displayHex v dot) s = .next { s with result := some .unsupported }

/-- R120, R63, on the spec's decision D29 that no resolver runs (log 13, unsafe): DISPLAY_JUST_DOT lights DP and
nothing else, reports OK under any policy, list and straps, and is `RENDER 0x80` in every state; where the policy
supports '.' it leaves the lines `DISPLAY '.'` leaves (admissible ROM). -/
def Obligations.JustDotLightsOnlyDp : Prop :=
  (∀ (s : State) (d : Device), s.device? = some d → d.configured = true →
    exec .displayJustDot s = .next (shownAs s
      { d with line := { a := .driven .high, b := .driven .high, c := .driven .high, d := .driven .high,
                         e := .driven .high, f := .driven .high, g := .driven .high, dp := .driven .low } } .ok)) ∧
  (∀ s : State, exec .displayJustDot s = exec (.render 0x80) s) ∧
  (∀ (s : State) (d : Device) (dot : Bool), s.device? = some d → d.configured = true →
    RomAdmissible s.tables.glyphRom → resolveChar s.tables d.straps 0x2E ≠ .unsupported →
    ∃ t t', exec .displayJustDot s = .next t ∧ exec (.display 0x2E dot) s = .next t' ∧ t.slots = t'.slots)

/-- R163, on the spec's decision D18 (log 13): with no Device every runtime operation is refused, and on a Device that
is not configured every one but CONFIGURE. -/
def Obligations.UnreadyDevicesAreRefused : Prop :=
  ∀ (i : Instr) (s : State),
    (s.device? = none → exec i s = .refused .noDevice) ∧
    (∀ d, s.device? = some d → d.configured = false → i ≠ .configure → exec i s = .refused .notConfigured)

/-- R144, R140, R146: every operation in a phase where it is legal completes in one step, whatever its operands, with
OK or UNSUPPORTED, and UNSUPPORTED from DISPLAY and DISPLAY_HEX only. -/
def Obligations.LegalOperationsComplete : Prop :=
  ∀ (i : Instr) (s : State), Legal i s →
    ∃ t, exec i s = .next t ∧ (t.result = some .ok ∨ t.result = some .unsupported) ∧
      (t.result = some .unsupported → ∃ a dot, i = .display a dot ∨ i = .displayHex a dot)

/-! ### What an operation leaves alone -/

/-- R122, derived by the spec from R113 to R120: a runtime operation writes all 8 LINE of the Device it is issued to
or nothing; it writes no PIN, and MODE only if it is CONFIGURE. No other Device, no strap, no table, no handle's
validity and none of the host's inputs changes. -/
def Obligations.RuntimeOperationFrame : Prop :=
  ∀ (i : Instr) (s t : State), exec i s = .next t →
    t.tables = s.tables ∧ t.invalidHandles = s.invalidHandles ∧ t.pending = s.pending ∧ t.target = s.target ∧
    (t.slots = s.slots ∨
      ∃ d d' b, s.device? = some d ∧ t.slots = s.slots.set s.target (.live d') ∧
        muxOutput s.tables d.straps i = some b ∧ d'.line = drivenLines b ∧
        d'.pin = d.pin ∧ d'.straps = d.straps ∧ (i ≠ .configure → d'.mode = d.mode))

/-- R143, R142, R95: without the parity strap, an operation that reports UNSUPPORTED has changed nothing but the
result put out. -/
def Obligations.UnsupportedChangesNothing : Prop :=
  ∀ (i : Instr) (s t : State) (d : Device), s.device? = some d → d.straps.rangeStatusParity = false →
    exec i s = .next t → t.result = some .unsupported → t = { s with result := some .unsupported }

/-- R95: the parity strap changes no line. It makes DISPLAY under the range policy report UNSUPPORTED always; under
the fixed policy, and for every other operation, it changes nothing. -/
def Obligations.ParityStrapChangesOnlyResult : Prop :=
  ∀ (i : Instr) (s t : State) (d : Device), s.device? = some d → d.straps.rangeStatusParity = false →
    exec i s = .next t →
    ∃ t' e, exec i { s with slots := s.slots.set s.target (.live
        { d with straps := { d.straps with rangeStatusParity := true } }) } = .next t' ∧
      t.device? = some e ∧
      t'.device? = some { e with straps := { d.straps with rangeStatusParity := true } } ∧
      t'.result = if (∃ c dot, i = .display c dot) ∧ d.straps.policy = .range then some .unsupported else t.result

/-- R24, R150: a step changes no slot but the one its input is addressed to; a `construct` changes no slot there is.
-/
def Obligations.StepTouchesOnlyAddressedDevice : Prop :=
  ∀ (s t : State), step s = .next t → ∀ j, j < s.slots.length →
    (∀ k w rest, s.pending = .command k w :: rest → k ≠ j) →
    (∀ k rest, s.pending = .drop k :: rest → k ≠ j) →
    t.slots[j]? = s.slots[j]?

/-- R11, R12, R16, R41, R122: whatever the step, the tables and the handles' validity stay, a Device that stays live
keeps its handles and straps, and a line in output-drive mode stays in it. -/
def Obligations.StepKeepsPinsStrapsAndTables : Prop :=
  ∀ (s t : State), step s = .next t → t.tables = s.tables ∧ t.invalidHandles = s.invalidHandles ∧
    ∀ k d d', s.live? k = some d → t.live? k = some d' →
      d'.pin = d.pin ∧ d'.straps = d.straps ∧ ∀ l, d.mode.get l = .output → d'.mode.get l = .output

/-- R151, R152, R170: where nothing is issued to a Device, because the host issues nothing or uses the LCD, every
Device stays as it is. -/
def Obligations.LinesHoldBetweenOperations : Prop :=
  ∀ s : State, (s.pending = [] ∨ ∃ rest, s.pending = .peripheral :: rest) →
    step s = .next { s with pending := s.pending.tail, result := none }

/-- R18, R170: dropping a Device is no operation: no result, nothing written, every other Device stays. That the slot
stays empty, and that a Device may be dropped before it was configured, are the model's choices (log 10). -/
def Obligations.DropWritesNothing : Prop :=
  ∀ (s : State) (k : Nat) (d : Device) (rest : List HostInput), s.pending = .drop k :: rest → s.live? k = some d →
    step s = .next { s with pending := rest, result := none, slots := s.slots.set k .dropped }

/-! ### Observables -/

/-- R123, derived by the spec from R111, R112 and R117: after RENDER of b, positions 0..7 take their level from bits
2, 3, 4, 7, 5, 6, 1, 0. -/
def Obligations.PadViewOfRenderedMask : Prop :=
  ∀ (b : Mask) (s : State) (d : Device), s.device? = some d → d.configured = true →
    ∃ t d', exec (.render b) s = .next t ∧ t.device? = some d' ∧
      (∀ p, d'.pad p = some (if b.getLsbD (segbit (invPerm p)) = true then .low else .high)) ∧
      (List.finRange 8).map d'.pad =
        [2, 3, 4, 7, 5, 6, 1, 0].map fun n => some (bitLevel (b.getLsbD n))

/-- R166, R23: on a configured Device a segment is lit exactly where its line is `LOW` and dark exactly where it is
`HIGH`; after RENDER of b it is lit exactly where its bit is set; and before `configure` no observable has a value. That the observables are defined only when configured is the spec's own decision (D26, log 13), and that
`none` stands for their having no value is the model's reading of it (DEDUCED, log 5). -/
def Obligations.LitMeansDrivenLow : Prop :=
  (∀ (d : Device), d.configured = true → ∀ l,
    (d.lit l = some true ↔ d.line.get l = .driven .low) ∧ (d.lit l = some false ↔ d.line.get l = .driven .high)) ∧
  (∀ (b : Mask) (s : State) (d : Device), s.device? = some d → d.configured = true →
    ∃ t d', exec (.render b) s = .next t ∧ t.device? = some d' ∧ ∀ l, d'.lit l = some (b.getLsbD (segbit l))) ∧
  (∀ (d : Device), d.configured = false → (∀ l, d.lit l = none) ∧ (∀ p, d.pad p = none) ∧ ∀ h, d.padOf h = none)

/-! ### Rules of the whole machine -/

/-- The invariant of Safety.lean holds before the host has done anything. It rests on the default tables (log 1). -/
def Obligations.ResetMeetsInvariant : Prop := MachineInv State.reset

/-- R18, R160, R19: before the host has done anything no Device exists and no result is pending. The tables are the
defaults (log 1), the host has issued nothing (log 7) and every handle is valid (log 3). -/
def Obligations.ResetHasNoDevice : Prop :=
  (∀ k, State.reset.phase k = .absent) ∧ State.reset.result = none ∧ State.reset.pending = [] ∧
  State.reset.tables = defaultTables ∧ State.reset.invalidHandles = []

/-- R36, R114, R19, R96: every step keeps the invariant: an admissible ROM, and live Devices each all unconfigured and
unwritten or all configured and written, with distinct and valid handles no other Device shares. -/
def Obligations.StepKeepsInvariant : Prop :=
  ∀ (s t : State), MachineInv s → step s = .next t → MachineInv t

/-- R18: no step moves a Device backwards in its lifecycle, and a Device comes into being constructed. That it may be
dropped from *constructed* already is the model's choice (log 10). -/
def Obligations.LifecycleNeverRunsBackwards : Prop :=
  ∀ (s t : State), step s = .next t → ∀ k,
    phaseRank (s.phase k) ≤ phaseRank (t.phase k) ∧
    (s.phase k = .absent → t.phase k = .absent ∨ t.phase k = .constructed)

/-- R121 (derived by the spec from R115 to R120), R40: a sequence of operations on a configured Device always
completes, and leaves the lines of the last operation in it that wrote lines, as a function of that operation alone;
operations that raised drop out. -/
def Obligations.LastLineWriteWins : Prop :=
  ∀ (ops : List Instr) (s : State) (d : Device), s.device? = some d → d.configured = true →
    ∃ t, runOps ops s = .next t ∧ t.device? = some
      { d with line := match (ops.filterMap (muxOutput s.tables d.straps)).getLast? with
                       | some b => drivenLines b
                       | none => d.line }

/-- R21: no step reads the result an earlier one put out. -/
def Obligations.ResultIsNeverRead : Prop :=
  ∀ (s : State) (r : Option Result), step { s with result := r } = step s

/-- R15: no operation reads a line level: from two states that differ only in the lines of the Device issued to, an
operation is refused alike, or answers the same result and either writes the same machine or leaves each as it is. -/
def Obligations.LineLevelsAreNeverRead : Prop :=
  ∀ (i : Instr) (s : State) (d : Device) (line : Octet Line), s.device? = some d →
    let s' : State := { s with slots := s.slots.set s.target (.live { d with line := line }) }
    (∀ r, exec i s = .refused r → exec i s' = .refused r) ∧
    (∀ t, exec i s = .next t → ∃ t', exec i s' = .next t' ∧ t'.result = t.result ∧
      (t' = t ∨ (t.slots = s.slots ∧ t'.slots = s'.slots)))

/-- R24, R42, R150: operations on two different Devices commute: in either order each reports the same result and the
Devices end the same. -/
def Obligations.OperationsOnTwoDevicesCommute : Prop :=
  ∀ (i i' : Instr) (s t u : State) (j k : Nat), j ≠ k →
    exec i { s with target := j } = .next t → exec i' { t with target := k } = .next u →
    ∃ t' u', exec i' { s with target := k } = .next t' ∧ exec i { t' with target := j } = .next u' ∧
      u'.slots = u.slots ∧ u'.tables = u.tables ∧ u'.invalidHandles = u.invalidHandles ∧ t'.result = u.result ∧ u'.result = t.result

/-- R161, R113, R115, R117, R123, R39: from every state that meets the invariant, `construct` with 8 free and valid
handles in silkscreen order, CONFIGURE, and RENDER of b bring bits 2, 3, 4, 7, 5, 6, 1, 0 to the eight lines of those
handles, active low. That the new Device is reached by the next slot number is the model's (log 4). -/
def Obligations.BringUpReachesThePads : Prop :=
  ∀ (s : State) (straps : Straps) (rest : List HostInput) (b : Mask) (p0 p1 p2 p3 p4 p5 p6 p7 : Handle)
    (wc wr : CommandWord),
    MachineInv s → HandlesFree [p0, p1, p2, p3, p4, p5, p6, p7] s.owned →
    HandlesValid [p0, p1, p2, p3, p4, p5, p6, p7] s.invalidHandles →
    FixedListWf straps.fixedCaseFold s.tables.fixedList →
    decode wc = .ok .configure → decode wr = .ok (.render b) →
    s.pending = .construct straps [p0, p1, p2, p3, p4, p5, p6, p7] :: .command s.slots.length wc ::
      .command s.slots.length wr :: rest →
    ∃ t, Sys2Proof.core.run 3 s = .next t ∧ t.pending = rest ∧
      [p0, p1, p2, p3, p4, p5, p6, p7].map t.padOf =
        [2, 3, 4, 7, 5, 6, 1, 0].map fun n => some (bitLevel (b.getLsbD n))

/-- R11 (D19): the handle type is a parameter with decidable equality. `exec` and `step` are `operation` and `stepAt`
at the one type they are fixed to (log 3); between any two handle types, an injective renaming of the handles renames
every answer of `stepAt`, and the level on a line follows its handle, so the machine uses nothing of a handle but
equality. -/
def Obligations.HandlesAreOpaque : Prop :=
  (∀ (i : Instr) (s : State), exec i s = operation i s) ∧ (∀ s : State, step s = stepAt s) ∧
  ∀ (H K : Type) [DecidableEq H] [DecidableEq K] (f : H → K), Function.Injective f → ∀ s : State H,
    stepAt (s.rename f) = renameAnswer f (stepAt s) ∧ ∀ h, (s.rename f).padOf (f h) = s.padOf h
end

