-- ==== Sys2Proof/Laws/Decode.lean ====
section
/-! SUPPORT. Laws/Decode.lean: the fields of a command word put together from its fields (R56). -/

namespace Sys2Proof

/-- Each bit of a command word is a bit of one of its fields (R56). -/
theorem commandWord_getLsbD (op : BitVec 3) (dot : Bool) (arg : BitVec 8) (i : Nat) :
    (commandWord op dot arg).getLsbD i =
      if i < 8 then arg.getLsbD i else if i = 8 then dot else op.getLsbD (i - 9) := by
  have outer : (commandWord op dot arg).getLsbD i =
      if i < 9 then (BitVec.ofBool dot ++ arg).getLsbD i else op.getLsbD (i - 9) :=
    BitVec.getLsbD_append (x := op) (y := BitVec.ofBool dot ++ arg)
  have inner : (BitVec.ofBool dot ++ arg).getLsbD i =
      if i < 8 then arg.getLsbD i else (BitVec.ofBool dot).getLsbD (i - 8) := BitVec.getLsbD_append
  rw [outer, inner]
  rcases Nat.lt_trichotomy i 8 with h | rfl | h
  · simp [h, show i < 9 by omega]
  · simp
  · simp [show ¬ i < 9 by omega, show ¬ i < 8 by omega, show ¬ i = 8 by omega]

@[simp] theorem opField_commandWord (op : BitVec 3) (dot : Bool) (arg : BitVec 8) :
    opField (commandWord op dot arg) = op := by
  refine BitVec.eq_of_getLsbD_eq fun i h => ?_
  simp [opField, commandWord_getLsbD, h, show ¬ 9 + i < 8 by omega, show ¬ 9 + i = 8 by omega]

@[simp] theorem dotField_commandWord (op : BitVec 3) (dot : Bool) (arg : BitVec 8) :
    dotField (commandWord op dot arg) = dot :=
  (commandWord_getLsbD op dot arg 8).trans (by simp)

@[simp] theorem argField_commandWord (op : BitVec 3) (dot : Bool) (arg : BitVec 8) :
    argField (commandWord op dot arg) = arg := by
  refine BitVec.eq_of_getLsbD_eq fun i h => ?_
  simp [argField, commandWord_getLsbD, h]

/-- A command word is its three fields (R56). -/
theorem commandWord_fields (w : CommandWord) : commandWord (opField w) (dotField w) (argField w) = w := by
  refine BitVec.eq_of_getLsbD_eq fun i h => ?_
  rw [commandWord_getLsbD]
  rcases Nat.lt_trichotomy i 8 with h8 | rfl | h8
  · simp [argField, h8]
  · simp [dotField]
  · simp [opField, show ¬ i < 8 by omega, show ¬ i = 8 by omega, show i - 9 < 3 by omega,
      show 9 + (i - 9) = i by omega]

end Sys2Proof
end

