-- ==== Sys2Proof/Laws/Operands.lean ====
section
/-! SUPPORT. Laws/Operands.lean: the resolvers, one lemma for what each can answer. -/

namespace Sys2Proof.Machine

/-- The list search finds an entry with the character's key, or there is none (R96). -/
theorem resolveFixed_cases (caseFold : Bool) (list : List CharCode) (c : CharCode) :
    (resolveFixed caseFold list c = .unsupported ∧ ∀ e ∈ list, searchKey caseFold e ≠ searchKey caseFold c) ∨
    (∃ e ∈ list, searchKey caseFold e = searchKey caseFold c ∧ resolveFixed caseFold list c = resolveRange e) := by
  induction list with
  | nil => exact .inl ⟨rfl, by simp⟩
  | cons e rest ih =>
    by_cases h : searchKey caseFold e = searchKey caseFold c
    · exact .inr ⟨e, by simp, h, by simp [resolveFixed, h]⟩
    · rcases ih with ⟨hr, hn⟩ | ⟨e', hm, hk, hr⟩
      · exact .inl ⟨by simp [resolveFixed, h, hr], by simpa [h] using hn⟩
      · exact .inr ⟨e', by simp [hm], hk, by simp [resolveFixed, h, hr]⟩

/-- The hex path, by the value (R99). -/
theorem resolveHex_cases (v : HexValue) :
    (∃ h : v.toNat < 41, v.toNat ≤ 15 ∧ resolveHex v = .resolved ⟨v.toNat, h⟩ false) ∨
    (15 < v.toNat ∧ resolveHex v = .unsupported) := by
  by_cases h : v.toNat ≤ 15
  · exact .inl ⟨by omega, h, by simp [resolveHex, Config.hexMax, h]⟩
  · exact .inr ⟨by omega, by simp [resolveHex, Config.hexMax, h]⟩

end Sys2Proof.Machine
end

