-- ==== Sys2Proof/Laws/Octet.lean ====
section
/-! SUPPORT. Laws/Octet.lean: reading an octet, and when two are equal. -/

namespace Sys2Proof

@[simp] theorem Octet.get_ofFn {α : Type} (f : Segment → α) (l : Segment) : (Octet.ofFn f).get l = f l := by
  cases l <;> rfl

@[simp] theorem Octet.get_fill {α : Type} (v : α) (l : Segment) : (Octet.fill v).get l = v := by
  cases l <;> rfl

@[simp] theorem Octet.get_map {α β : Type} (f : α → β) (o : Octet α) (l : Segment) :
    (o.map f).get l = f (o.get l) := by
  cases l <;> rfl

/-- Two octets that hold the same at every segment are equal. -/
theorem Octet.ext_get {α : Type} {o o' : Octet α} (h : ∀ l, o.get l = o'.get l) : o = o' := by
  have ha := h .a; have hb := h .b; have hc := h .c; have hd := h .d
  have he := h .e; have hf := h .f; have hg := h .g; have hp := h .dp
  cases o; cases o'; simp_all [Octet.get]

theorem Octet.mem_toList {α : Type} (o : Octet α) (v : α) : v ∈ o.toList ↔ ∃ l, o.get l = v := by
  constructor
  · intro h
    simp only [Octet.toList, List.mem_cons, List.not_mem_nil, or_false] at h
    rcases h with h | h | h | h | h | h | h | h
    exacts [⟨.a, h.symm⟩, ⟨.b, h.symm⟩, ⟨.c, h.symm⟩, ⟨.d, h.symm⟩, ⟨.e, h.symm⟩, ⟨.f, h.symm⟩,
      ⟨.g, h.symm⟩, ⟨.dp, h.symm⟩]
  · rintro ⟨l, rfl⟩
    cases l <;> simp [Octet.toList, Octet.get]

theorem Octet.all_iff_get {α : Type} (p : α → Bool) (o : Octet α) : o.all p = true ↔ ∀ l, p (o.get l) = true := by
  simp only [Octet.all, List.all_eq_true, Octet.mem_toList]
  exact ⟨fun h l => h _ ⟨l, rfl⟩, fun h v ⟨l, hl⟩ => hl ▸ h l⟩

end Sys2Proof
end

