-- ==== Sys2Proof/Laws/State.lean ====
section
/-! SUPPORT. Laws/State.lean: what each named update of the state and of a Device leaves in each field, and what the
slots hold after it. -/

namespace Sys2Proof.Machine

variable {H : Type}

section fields
variable (s : State H) (d : Device H) (r : Result) (k : Nat) (rest : List (HostInput H)) (b : Mask)

@[simp] theorem State.put_tables : (s.put d).tables = s.tables := rfl
@[simp] theorem State.put_invalidHandles : (s.put d).invalidHandles = s.invalidHandles := rfl
@[simp] theorem State.put_slots : (s.put d).slots = s.slots.set s.target (.live d) := rfl
@[simp] theorem State.put_target : (s.put d).target = s.target := rfl
@[simp] theorem State.put_result : (s.put d).result = s.result := rfl
@[simp] theorem State.put_pending : (s.put d).pending = s.pending := rfl

@[simp] theorem State.add_tables : (s.add d).tables = s.tables := rfl
@[simp] theorem State.add_invalidHandles : (s.add d).invalidHandles = s.invalidHandles := rfl
@[simp] theorem State.add_slots : (s.add d).slots = s.slots ++ [.live d] := rfl
@[simp] theorem State.add_target : (s.add d).target = s.target := rfl
@[simp] theorem State.add_result : (s.add d).result = s.result := rfl
@[simp] theorem State.add_pending : (s.add d).pending = s.pending := rfl

@[simp] theorem State.release_tables : (s.release k).tables = s.tables := rfl
@[simp] theorem State.release_invalidHandles : (s.release k).invalidHandles = s.invalidHandles := rfl
@[simp] theorem State.release_slots : (s.release k).slots = s.slots.set k .dropped := rfl
@[simp] theorem State.release_target : (s.release k).target = s.target := rfl
@[simp] theorem State.release_result : (s.release k).result = s.result := rfl
@[simp] theorem State.release_pending : (s.release k).pending = s.pending := rfl

@[simp] theorem State.report_tables : (s.report r).tables = s.tables := rfl
@[simp] theorem State.report_invalidHandles : (s.report r).invalidHandles = s.invalidHandles := rfl
@[simp] theorem State.report_slots : (s.report r).slots = s.slots := rfl
@[simp] theorem State.report_target : (s.report r).target = s.target := rfl
@[simp] theorem State.report_result : (s.report r).result = some r := rfl
@[simp] theorem State.report_pending : (s.report r).pending = s.pending := rfl

@[simp] theorem State.silent_tables : s.silent.tables = s.tables := rfl
@[simp] theorem State.silent_invalidHandles : s.silent.invalidHandles = s.invalidHandles := rfl
@[simp] theorem State.silent_slots : s.silent.slots = s.slots := rfl
@[simp] theorem State.silent_target : s.silent.target = s.target := rfl
@[simp] theorem State.silent_result : s.silent.result = none := rfl
@[simp] theorem State.silent_pending : s.silent.pending = s.pending := rfl

@[simp] theorem State.consume_tables : (s.consume rest).tables = s.tables := rfl
@[simp] theorem State.consume_invalidHandles : (s.consume rest).invalidHandles = s.invalidHandles := rfl
@[simp] theorem State.consume_slots : (s.consume rest).slots = s.slots := rfl
@[simp] theorem State.consume_target : (s.consume rest).target = s.target := rfl
@[simp] theorem State.consume_result : (s.consume rest).result = s.result := rfl
@[simp] theorem State.consume_pending : (s.consume rest).pending = rest := rfl

@[simp] theorem State.issue_tables : (s.issue k rest).tables = s.tables := rfl
@[simp] theorem State.issue_invalidHandles : (s.issue k rest).invalidHandles = s.invalidHandles := rfl
@[simp] theorem State.issue_slots : (s.issue k rest).slots = s.slots := rfl
@[simp] theorem State.issue_target : (s.issue k rest).target = k := rfl
@[simp] theorem State.issue_result : (s.issue k rest).result = s.result := rfl
@[simp] theorem State.issue_pending : (s.issue k rest).pending = rest := rfl

@[simp] theorem Device.drive_straps : (d.drive b).straps = d.straps := rfl
@[simp] theorem Device.drive_pin : (d.drive b).pin = d.pin := rfl
@[simp] theorem Device.drive_mode : (d.drive b).mode = d.mode := rfl
@[simp] theorem Device.drive_line (l : Segment) :
    (d.drive b).line.get l = .driven (levelOf (maskBit b l)) := by simp [Device.drive]
@[simp] theorem Device.drive_configured : (d.drive b).configured = d.configured := rfl

@[simp] theorem Device.enableOutputs_straps : d.enableOutputs.straps = d.straps := rfl
@[simp] theorem Device.enableOutputs_pin : d.enableOutputs.pin = d.pin := rfl
@[simp] theorem Device.enableOutputs_mode : d.enableOutputs.mode = Octet.fill .output := rfl
@[simp] theorem Device.enableOutputs_line : d.enableOutputs.line = d.line := rfl
@[simp] theorem Device.enableOutputs_configured : d.enableOutputs.configured = true := rfl

end fields

/-! The live Devices depend on the slots alone. -/

theorem State.live?_congr {s t : State H} (h : t.slots = s.slots) (k : Nat) : t.live? k = s.live? k := by
  simp only [State.live?, h]

theorem State.liveDevices_congr {s t : State H} (h : t.slots = s.slots) : t.liveDevices = s.liveDevices := by
  simp only [State.liveDevices, h]

theorem State.live?_eq_some {s : State H} {k : Nat} {d : Device H} :
    s.live? k = some d ↔ s.slots[k]? = some (.live d) := by
  unfold State.live?
  split <;> simp_all

theorem State.live?_lt {s : State H} {k : Nat} {d : Device H} (h : s.live? k = some d) : k < s.slots.length :=
  (List.getElem?_eq_some_iff.mp (State.live?_eq_some.mp h)).1

/-- After a Device is replaced, its slot holds the new one and every other slot what it held. -/
theorem State.live?_put {s : State H} {d : Device H} (h : s.device? = some d) (d' : Device H) (k : Nat) :
    (s.put d').live? k = if k = s.target then some d' else s.live? k := by
  have hlt := State.live?_lt h
  by_cases hk : k = s.target
  · subst hk; simp [State.live?, hlt]
  · simp [State.live?, hk, List.getElem?_set_ne (Ne.symm hk)]

theorem State.device?_put {s : State H} {d : Device H} (h : s.device? = some d) (d' : Device H) :
    (s.put d').device? = some d' := by
  simpa [State.device?] using State.live?_put h d' s.target

/-- A live Device is the one of some slot. -/
theorem State.mem_liveDevices {s : State H} {d : Device H} : d ∈ s.liveDevices ↔ ∃ k, s.live? k = some d := by
  simp only [State.liveDevices, List.mem_filterMap, State.live?_eq_some]
  constructor
  · rintro ⟨slot, hm, hs⟩
    obtain ⟨k, hk⟩ := List.mem_iff_getElem?.mp hm
    cases slot with
    | live e => exact ⟨k, by simp_all⟩
    | dropped => simp at hs
  · rintro ⟨k, hk⟩
    exact ⟨_, List.mem_iff_getElem?.mpr ⟨k, hk⟩, rfl⟩

@[simp] theorem State.liveDevices_add (s : State H) (d : Device H) :
    (s.add d).liveDevices = s.liveDevices ++ [d] := by
  simp [State.liveDevices]

/-- Dropping a Device only takes one away from the live ones. -/
theorem State.liveDevices_release_sublist (s : State H) (k : Nat) :
    (s.release k).liveDevices.Sublist s.liveDevices := by
  simp only [State.liveDevices, State.release_slots]
  generalize s.slots = slots
  induction slots generalizing k with
  | nil => simp
  | cons slot rest ih =>
    cases k with
    | zero =>
      cases slot with
      | live d => simp
      | dropped => simp
    | succ k =>
      cases slot with
      | live d => simpa using ih k
      | dropped => simpa using ih k

/-- Replacing a Device by one with the same handles leaves the handles of the live Devices, in order. -/
theorem State.map_pin_liveDevices_put {s : State H} {d d' : Device H} (h : s.device? = some d) (hp : d'.pin = d.pin) :
    (s.put d').liveDevices.map Device.pin = s.liveDevices.map Device.pin := by
  have hk := State.live?_eq_some.mp h
  simp only [State.liveDevices, State.put_slots]
  generalize s.slots = slots at hk
  generalize s.target = k at hk
  induction slots generalizing k with
  | nil => simp
  | cons slot rest ih =>
    cases k with
    | zero =>
      have : slot = .live d := by simpa using hk
      subst this; simp [hp]
    | succ k =>
      have hk' : rest[k]? = some (.live d) := by simpa using hk
      cases slot with
      | live e => simpa using ih k hk'
      | dropped => simpa using ih k hk'

end Sys2Proof.Machine
end

