-- ==== Sys2Proof/Laws/Ops.lean ====
section
/-! SUPPORT. Laws/Ops.lean: for each shared operation, everything it can do, said once. -/

namespace Sys2Proof.Machine

variable {H : Type}

/-- `withDevice` goes on exactly where there is a Device. -/
theorem withDevice_of_some {s : State H} {d : Device H} (h : s.device? = some d) (f : Device H → Answer H) :
    withDevice s f = f d := by simp [withDevice, h]

theorem withDevice_of_none {s : State H} (h : s.device? = none) (f : Device H → Answer H) :
    withDevice s f = .refused .noDevice := by simp [withDevice, h]

/-- `withConfigured` goes on exactly where there is a configured Device. -/
theorem withConfigured_of_configured {s : State H} {d : Device H} (h : s.device? = some d) (hc : d.configured = true)
    (f : Device H → Answer H) : withConfigured s f = f d := by simp [withConfigured, withDevice, h, hc]

theorem withConfigured_of_not {s : State H} {d : Device H} (h : s.device? = some d) (hc : d.configured = false)
    (f : Device H → Answer H) : withConfigured s f = .refused .notConfigured := by
  simp [withConfigured, withDevice, h, hc]

theorem withConfigured_of_none {s : State H} (h : s.device? = none) (f : Device H → Answer H) :
    withConfigured s f = .refused .noDevice := by simp [withConfigured, withDevice, h]

/-- Where `withDevice` answers a next state, there is a Device and the rest answers it. -/
theorem withDevice_next {s t : State H} {f : Device H → Answer H} (h : withDevice s f = .next t) :
    ∃ d, s.device? = some d ∧ f d = .next t := by
  unfold withDevice at h
  split at h
  · exact ⟨_, ‹_›, h⟩
  · cases h

/-- Where `withConfigured` answers a next state, there is a configured Device and the rest answers it. -/
theorem withConfigured_next {s t : State H} {f : Device H → Answer H} (h : withConfigured s f = .next t) :
    ∃ d, s.device? = some d ∧ d.configured = true ∧ f d = .next t := by
  obtain ⟨d, hd, h⟩ := withDevice_next h
  split at h
  · exact ⟨d, hd, ‹_›, h⟩
  · cases h

theorem raise_next {c : Result} {s t : State H} : raise c s = .next t ↔ t = s.report c := by
  simp [raise, eq_comm]

theorem driveAndReport_next {b : Mask} {r : Result} {s t : State H} {d : Device H} :
    driveAndReport b r s d = .next t ↔ t = (s.put (d.drive b)).report r := by
  simp [driveAndReport, eq_comm]

/-- A Device is configured exactly where its mode cells are all `OUTPUT`. -/
theorem Device.configured_iff (d : Device H) : d.configured = true ↔ d.mode = Octet.fill .output := by
  simp only [Device.configured, Octet.all_iff_get, decide_eq_true_eq]
  exact ⟨fun h => Octet.ext_get fun l => by simp [h l], fun h l => by simp [h]⟩

/-- On a configured Device, enabling the outputs again changes nothing. -/
theorem Device.enableOutputs_of_configured {d : Device H} (h : d.configured = true) : d.enableOutputs = d := by
  have := (Device.configured_iff d).mp h
  cases d; simp_all [Device.enableOutputs]

/-- `levelOf`, written out: a lit segment's line is `LOW`, a dark one's `HIGH` (R166). -/
@[simp] theorem levelOf_true : levelOf true = .low := rfl
@[simp] theorem levelOf_false : levelOf false = .high := rfl

end Sys2Proof.Machine
end

