-- ==== Sys2Proof/Laws/Step.lean ====
section
/-! SUPPORT. Laws/Step.lean: everything `construct`, `drop` and a step can do when they answer a next state. -/

namespace Sys2Proof.Machine

variable {H : Type}

/-- `construct` adds one new Device, or raises `WRONG_PIN_COUNT` (R113). -/
theorem construct_next [DecidableEq H] {straps : Straps} {pins : List H} {s t : State H} (h : construct straps pins s = .next t) :
    (pins.length ≠ Config.nseg ∧ t = s.report .wrongPinCount) ∨
    (∃ hl : pins.length = Config.nseg, HandlesFree pins s.owned ∧ HandlesValid pins s.invalidHandles ∧
      FixedListWf straps.fixedCaseFold s.tables.fixedList ∧ t = (s.add (newDevice straps pins hl)).report .ok) := by
  unfold construct at h
  split at h
  · rename_i hl
    split at h
    · cases h
    · split at h
      · cases h
      · split at h
        · cases h
        · split at h
          · cases h
          · refine .inr ⟨hl, not_not.mp ‹_›, not_not.mp ‹_›, not_not.mp ‹_›, ?_⟩
            cases h; rfl
  · exact .inl ⟨‹_›, raise_next.mp h⟩

/-- `drop` empties the slot of a live Device. -/
theorem drop_next {k : Nat} {s t : State H} (h : drop k s = .next t) :
    ∃ d, s.live? k = some d ∧ t = (s.release k).silent := by
  unfold drop at h
  split at h
  · cases h; exact ⟨_, ‹_›, rfl⟩
  · cases h

/-- The five ways a step answers a next state, whatever runs its operations. -/
theorem stepWith_next [DecidableEq H] {run : Instr → State H → Answer H} {s t : State H} (h : stepWith run s = .next t) :
    (s.pending = [] ∧ t = s.silent) ∨
    (∃ straps pins rest, s.pending = .construct straps pins :: rest ∧
      construct straps pins (s.consume rest) = .next t) ∨
    (∃ k w rest i, s.pending = .command k w :: rest ∧ decode w = .ok i ∧ run i (s.issue k rest) = .next t) ∨
    (∃ k rest, s.pending = .drop k :: rest ∧ drop k (s.consume rest) = .next t) ∨
    (∃ rest, s.pending = .peripheral :: rest ∧ t = (s.consume rest).silent) := by
  unfold stepWith at h
  split at h
  · cases h; exact .inl ⟨‹_›, rfl⟩
  · exact .inr (.inl ⟨_, _, _, ‹_›, h⟩)
  · rename_i k w rest hp
    split at h
    · rename_i i hi
      refine .inr (.inr (.inl ⟨k, w, rest, i, hp, ?_, h⟩))
      unfold readCommand at hi
      split at hi
      · cases hi; assumption
      · cases hi
    · cases h
  · exact .inr (.inr (.inr (.inl ⟨_, _, ‹_›, h⟩)))
  · cases h; exact .inr (.inr (.inr (.inr ⟨_, ‹_›, rfl⟩)))

/-- The five ways a step answers a next state. -/
theorem step_next {s t : State} (h : step s = .next t) :
    (s.pending = [] ∧ t = s.silent) ∨
    (∃ straps pins rest, s.pending = .construct straps pins :: rest ∧
      construct straps pins (s.consume rest) = .next t) ∨
    (∃ k w rest i, s.pending = .command k w :: rest ∧ decode w = .ok i ∧ exec i (s.issue k rest) = .next t) ∨
    (∃ k rest, s.pending = .drop k :: rest ∧ drop k (s.consume rest) = .next t) ∨
    (∃ rest, s.pending = .peripheral :: rest ∧ t = (s.consume rest).silent) := stepWith_next h

end Sys2Proof.Machine
end

