-- ==== Sys2Proof/Laws/Exec.lean ====
section
/-! SUPPORT. Laws/Exec.lean: what an operation can do, said once for all six: on a configured Device the data path of
R110, and the inversion of a next state. -/

namespace Sys2Proof.Machine

variable {H : Type}

/-- `drive` leaves the lines R117 writes out. -/
theorem Device.drive_eq (d : Device H) (b : Mask) : d.drive b = { d with line := drivenLines b } := by
  simp [Device.drive, drivenLines, Octet.ofFn, maskBit, segbit, levelOf, bitLevel, Config.active, Config.inactive,
    Config.dpBit]

theorem compose_eq_or : ∀ (pattern : Pattern) (dp : Bool),
    compose pattern dp = pattern.zeroExtend 8 ||| ((BitVec.ofBool dp).zeroExtend 8 <<< 7) := by decide

/-- The SegmentBitmask of a resolved glyph is the one R52's OR form gives. -/
theorem glyphMask_eq_dotted (tables : Tables) (addr : GlyphAddr) (dot forceDp : Bool) :
    glyphMask tables addr dot forceDp = dottedMask tables.glyphRom addr (dot || forceDp) :=
  compose_eq_or _ _

/-- The result an operation reports after it has written the lines (R115 to R120, R95). -/
def resultAfterWrite (straps : Straps) : Instr → Result
  | .configure => .ok
  | .clear => .ok
  | .render _ => .ok
  | .display _ _ => displayStatus straps
  | .displayHex _ _ => .ok
  | .displayJustDot => .ok

/-- `showResolved` raises or drives. -/
theorem showResolved_eq (r : Resolution) (dot : Bool) (status : Result) (s : State H) (d : Device H) :
    showResolved r dot status s d =
      match r with
      | .unsupported => .next (s.report .unsupported)
      | .resolved addr forceDp => .next ((s.put
          { d with line := drivenLines (dottedMask s.tables.glyphRom addr (dot || forceDp)) }).report status) := by
  cases r with
  | unsupported => rfl
  | resolved addr forceDp => simp only [showResolved, driveAndReport, Device.drive_eq, glyphMask_eq_dotted]

/-- The data path of R110 on a configured Device: what the multiplexer selects is driven, and where the resolver
rejects, UNSUPPORTED is raised with nothing written. -/
theorem operation_of_configured (i : Instr) {s : State H} {d : Device H} (h : s.device? = some d)
    (hc : d.configured = true) :
    operation i s =
      match muxOutput s.tables d.straps i with
      | some b => .next ((s.put { d with line := drivenLines b }).report (resultAfterWrite d.straps i))
      | none => .next (s.report .unsupported) := by
  cases i with
  | configure =>
    simp only [operation, execConfigure, withDevice_of_some h, driveAndReport, Device.drive_eq,
      Device.enableOutputs_of_configured hc, muxOutput, resultAfterWrite]
  | clear => simp only [operation, execClear, withConfigured_of_configured h hc, driveAndReport, Device.drive_eq]; rfl
  | render b => simp only [operation, execRender, withConfigured_of_configured h hc, driveAndReport, Device.drive_eq]; rfl
  | display c dot =>
    simp only [operation, execDisplay, withConfigured_of_configured h hc, showResolved_eq, muxOutput, resultAfterWrite]
    cases resolveChar s.tables d.straps c <;> rfl
  | displayHex v dot =>
    simp only [operation, execDisplayHex, withConfigured_of_configured h hc, showResolved_eq, muxOutput, resultAfterWrite]
    cases resolveHex v <;> rfl
  | displayJustDot =>
    simp only [operation, execDisplayJustDot, withConfigured_of_configured h hc, driveAndReport, Device.drive_eq]; rfl

/-- Where an operation answers a next state there is a Device, configured unless the operation is CONFIGURE. -/
theorem operation_next_device {i : Instr} {s t : State H} (h : operation i s = .next t) :
    ∃ d, s.device? = some d ∧ (d.configured = true ∨ i = .configure) := by
  cases i with
  | configure => obtain ⟨d, hd, -⟩ := withDevice_next h; exact ⟨d, hd, .inr rfl⟩
  | clear => obtain ⟨d, hd, hc, -⟩ := withConfigured_next h; exact ⟨d, hd, .inl hc⟩
  | render b => obtain ⟨d, hd, hc, -⟩ := withConfigured_next h; exact ⟨d, hd, .inl hc⟩
  | display c dot => obtain ⟨d, hd, hc, -⟩ := withConfigured_next h; exact ⟨d, hd, .inl hc⟩
  | displayHex v dot => obtain ⟨d, hd, hc, -⟩ := withConfigured_next h; exact ⟨d, hd, .inl hc⟩
  | displayJustDot => obtain ⟨d, hd, hc, -⟩ := withConfigured_next h; exact ⟨d, hd, .inl hc⟩

/-- The three ways an operation answers a next state: CONFIGURE brings the Device up, an operation on a configured
Device drives what the multiplexer selects, or the resolver rejects and UNSUPPORTED is raised. -/
theorem operation_next {i : Instr} {s t : State H} (h : operation i s = .next t) :
    ∃ d, s.device? = some d ∧
      ((i = .configure ∧ t = (s.put { d with mode := Octet.fill .output, line := drivenLines 0 }).report .ok) ∨
       (d.configured = true ∧ ∃ b, muxOutput s.tables d.straps i = some b ∧
          t = (s.put { d with line := drivenLines b }).report (resultAfterWrite d.straps i)) ∨
       (d.configured = true ∧ muxOutput s.tables d.straps i = none ∧ t = s.report .unsupported)) := by
  obtain ⟨d, hd, hc | rfl⟩ := operation_next_device h
  · refine ⟨d, hd, .inr ?_⟩
    rw [operation_of_configured i hd hc] at h
    cases hm : muxOutput s.tables d.straps i with
    | some b => rw [hm] at h; cases h; exact .inl ⟨hc, b, rfl, rfl⟩
    | none => rw [hm] at h; cases h; exact .inr ⟨hc, rfl, rfl⟩
  · refine ⟨d, hd, .inl ⟨rfl, ?_⟩⟩
    simp only [operation, execConfigure, withDevice_of_some hd, driveAndReport, Device.drive_eq,
      Host.Outcome.next.injEq] at h
    exact h.symm

/-- `exec` is the machine's operations at `Handle`. -/
theorem exec_eq_operation (i : Instr) (s : State) : exec i s = operation i s := by
  cases i <;> rfl

/-- `step` is the machine's step at `Handle`. -/
theorem step_eq_stepAt (s : State) : step s = stepAt s := by
  rw [step, stepAt, show exec = operation from funext fun i => funext fun s => exec_eq_operation i s]

end Sys2Proof.Machine
end

