-- ==== Sys2Proof/Laws/PerInstr.lean ====
section
/-! SUPPORT. Laws/PerInstr.lean: statements about every instruction, one lemma per constructor. The family EncodedOp:
the canonical word of an operation holds the op of its row of R57, which is not a reserved one (R59). -/

namespace Sys2Proof.Laws

/-- The op the map of R57 gives each operation. -/
def EncodedOp.opOf : Instr → BitVec 3
  | .configure => 0
  | .clear => 1
  | .render _ => 2
  | .display _ _ => 3
  | .displayHex _ _ => 4
  | .displayJustDot => 5

def EncodedOp.Statement (i : Instr) : Prop :=
  opField (encode i) = EncodedOp.opOf i ∧ opField (encode i) ≠ 6 ∧ opField (encode i) ≠ 7

theorem EncodedOp.configure : EncodedOp.Statement .configure := by
  simp [EncodedOp.Statement, encode, EncodedOp.opOf]
theorem EncodedOp.clear : EncodedOp.Statement .clear := by
  simp [EncodedOp.Statement, encode, EncodedOp.opOf]
theorem EncodedOp.render (bitmask : Mask) : EncodedOp.Statement (.render bitmask) := by
  simp [EncodedOp.Statement, encode, EncodedOp.opOf]
theorem EncodedOp.display (glyph : CharCode) (dot : Bool) : EncodedOp.Statement (.display glyph dot) := by
  simp [EncodedOp.Statement, encode, EncodedOp.opOf]
theorem EncodedOp.displayHex (value : HexValue) (dot : Bool) : EncodedOp.Statement (.displayHex value dot) := by
  simp [EncodedOp.Statement, encode, EncodedOp.opOf]
theorem EncodedOp.displayJustDot : EncodedOp.Statement .displayJustDot := by
  simp [EncodedOp.Statement, encode, EncodedOp.opOf]

end Sys2Proof.Laws
end

