-- ==== Sys2Proof/Laws/Rename.lean ====
section
/-! SUPPORT. Laws/Rename.lean: what renaming the handles of a state leaves in each field, and that each named
operation over the state commutes with it. -/

namespace Sys2Proof.Machine

variable {H K : Type}

section fields
variable (f : H → K) (s : State H) (d : Device H) (r : Result) (k : Nat) (b : Mask)

@[simp] theorem Device.rename_straps : (d.rename f).straps = d.straps := rfl
@[simp] theorem Device.rename_pin : (d.rename f).pin = d.pin.map f := rfl
@[simp] theorem Device.rename_mode : (d.rename f).mode = d.mode := rfl
@[simp] theorem Device.rename_line : (d.rename f).line = d.line := rfl
@[simp] theorem Device.rename_configured : (d.rename f).configured = d.configured := rfl
@[simp] theorem Device.rename_level (l : Segment) : (d.rename f).level l = d.level l := rfl
theorem Device.rename_drive : (d.drive b).rename f = (d.rename f).drive b := rfl
theorem Device.rename_enableOutputs : d.enableOutputs.rename f = (d.rename f).enableOutputs := rfl

@[simp] theorem State.rename_tables : (s.rename f).tables = s.tables := rfl
@[simp] theorem State.rename_invalidHandles : (s.rename f).invalidHandles = s.invalidHandles.map f := rfl
@[simp] theorem State.rename_slots : (s.rename f).slots = s.slots.map (Slot.rename f) := rfl
@[simp] theorem State.rename_target : (s.rename f).target = s.target := rfl
@[simp] theorem State.rename_result : (s.rename f).result = s.result := rfl
@[simp] theorem State.rename_pending : (s.rename f).pending = s.pending.map (HostInput.rename f) := rfl
theorem State.rename_report : (s.report r).rename f = (s.rename f).report r := rfl
theorem State.rename_silent : s.silent.rename f = (s.rename f).silent := rfl
theorem State.rename_consume (rest : List (HostInput H)) :
    (s.consume rest).rename f = (s.rename f).consume (rest.map (HostInput.rename f)) := rfl
theorem State.rename_issue (rest : List (HostInput H)) :
    (s.issue k rest).rename f = (s.rename f).issue k (rest.map (HostInput.rename f)) := rfl

theorem State.rename_put : (s.put d).rename f = (s.rename f).put (d.rename f) := by
  simp [State.rename, State.put, Slot.rename, List.map_set]
theorem State.rename_add : (s.add d).rename f = (s.rename f).add (d.rename f) := by
  simp [State.rename, State.add, Slot.rename]
theorem State.rename_release : (s.release k).rename f = (s.rename f).release k := by
  simp [State.rename, State.release, Slot.rename, List.map_set]

end fields

/-- Renaming finds the same Devices, renamed. -/
@[simp] theorem State.live?_rename (f : H → K) (s : State H) (k : Nat) :
    (s.rename f).live? k = (s.live? k).map (Device.rename f) := by
  simp only [State.live?, State.rename_slots, List.getElem?_map]
  rcases s.slots[k]? with _ | ⟨d⟩ | _ <;> rfl

@[simp] theorem State.device?_rename (f : H → K) (s : State H) :
    (s.rename f).device? = s.device?.map (Device.rename f) := s.live?_rename f s.target

@[simp] theorem State.liveDevices_rename (f : H → K) (s : State H) :
    (s.rename f).liveDevices = s.liveDevices.map (Device.rename f) := by
  simp only [State.liveDevices, State.rename_slots]
  induction s.slots with
  | nil => rfl
  | cons slot rest ih => cases slot <;> simp [Slot.rename, ih]

@[simp] theorem State.owned_rename (f : H → K) (s : State H) : (s.rename f).owned = s.owned.map f := by
  simp only [State.owned, State.liveDevices_rename, List.flatMap_map, List.map_flatMap]
  rfl

/-- The remapper moves handles without looking at them. -/
theorem remap_map (f : H → K) (pins : List H) (h : pins.length = Config.nseg) :
    (remap pins h).map f = remap (pins.map f) (by simpa using h) :=
  Octet.ext_get fun l => by simp [remap]

end Sys2Proof.Machine
end

