-- ==== Sys2Proof/Tests/Slice0.lean ====
section
/-! SUPPORT. Tests/Slice0.lean: small tests whose expected results come from spec/95_test_vectors.md and the rules, the
well-formedness smoke tests, and for each statement with hypotheses a state and operands that meet them. -/

namespace Sys2Proof.Tests

open Sys2Proof.Machine

/-! ### Helpers -/

/-- `L` and `H` of 95_test_vectors.md's LINE strings. -/
def lo : Line := .driven .low
def hi : Line := .driven .high

/-- The handle named `n`. -/
def line (n : Nat) : Handle := ⟨n⟩

/-- Eight handles numbered from `n`. -/
def eight (n : Nat) : List Handle := (List.range 8).map fun i => line (n + i)

/-- The handles of a module in silkscreen order, named by package pin from `base` (R111). -/
def silkscreen (base : Nat) : List Handle := [1, 2, 4, 5, 6, 7, 9, 10].map fun n => line (base + n)

/-- Pins of a module whose handles are numbered by package pin from `base` (R113's example at 0). -/
def modulePins (base : Nat) : Octet Handle :=
  ⟨line (base + 7), line (base + 6), line (base + 4), line (base + 2), line (base + 1), line (base + 9),
    line (base + 10), line (base + 5)⟩

/-- A configured range-policy Device that shows an '8'. -/
def rangeDevice : Device :=
  { straps := { policy := .range }, pin := modulePins 0, mode := Octet.fill .output,
    line := ⟨lo, lo, lo, lo, lo, lo, lo, hi⟩ }

/-- A constructed Device, not configured. -/
def freshDevice : Device :=
  { straps := { policy := .fixed }, pin := modulePins 20, mode := Octet.fill .unconf, line := Octet.fill .unwritten }

/-- A configured fixed-policy Device, blank. -/
def fixedDevice : Device :=
  { straps := { policy := .fixed }, pin := modulePins 40, mode := Octet.fill .output, line := Octet.fill hi }

/-- A configured range-policy Device with the parity strap. -/
def parityDevice : Device :=
  { straps := { policy := .range, rangeStatusParity := true }, pin := modulePins 60, mode := Octet.fill .output,
    line := Octet.fill hi }

/-- Slots: 0 range, 1 fresh, 2 dropped, 3 fixed, 4 parity; handles 0 and 3 are invalid; the operation is issued to slot `k`. -/
def demo (k : Nat) (pending : List HostInput := []) : State :=
  { tables := defaultTables, invalidHandles := [line 0, line 3], slots := [.live rangeDevice, .live freshDevice, .dropped, .live fixedDevice,
      .live parityDevice], target := k, result := none, pending := pending }

/-- `demo` under a fixed list with the same character twice. -/
def demoBadList (pending : List HostInput) : State :=
  { demo 0 pending with tables := { glyphRom := defaultRom, fixedList := [0x41, 0x41] } }

def nextOf : Answer → Option State
  | .next t => some t
  | .fault _ => none
  | .refused _ => none

def refusalOf : Answer → Option Refusal
  | .next _ => none
  | .fault _ => none
  | .refused r => some r

/-- The lines of the target Device and the result after an operation. -/
def shown (o : Answer) : Option (Octet Line × Option Result) :=
  (nextOf o).bind fun t => t.device?.map fun d => (d.line, t.result)

/-- The pads of the target Device after an operation, positions 0..7. -/
def padsAfter (o : Answer) : Option (List (Option Level)) :=
  (nextOf o).bind fun t => t.device?.map fun d => (List.finRange 8).map d.pad

/-! ### Well-formedness: an ill-formed term for each check (R72 to R79, R96, R114, R164) -/

theorem test_rom_checks_refuse :
    [defaultRom.set 0 0, defaultRom.set 8 0, defaultRom.set 31 0, defaultRom.set 20 0, defaultRom.set 33 0,
      defaultRom.set 35 0, defaultRom.set 22 1, defaultRom.set 32 1, defaultRom.set 36 1,
      defaultRom.set 38 1].all (fun rom => decide (¬ RomAdmissible rom)) = true := by decide

theorem test_list_checks_refuse :
    ¬ FixedListWf true [0x41, 0x61] ∧ FixedListWf false [0x41, 0x61] ∧
    ¬ FixedListWf false [0x30, 0x30] ∧ ¬ FixedListWf false [0x30, 0x23] := by decide

theorem test_handle_checks_refuse :
    ¬ HandlesFree [line 1, line 1] [] ∧ ¬ HandlesFree [line 1, line 2] [line 2] ∧
    HandlesFree [line 1, line 2] [line 3] ∧ ¬ HandlesValid [line 1, line 2] [line 2] ∧ HandlesValid [line 1, line 2] [line 3] := by decide

/-! ### Decoding: words written out from R57's patterns (95 §2.1) -/

theorem test_decode_configure : decode 0b000111111111 = .ok .configure := by decide
theorem test_decode_clear : decode 0b001110100101 = .ok .clear := by decide
theorem test_decode_render : decode 0b010101111110 = .ok (.render 0b01111110) := by decide
theorem test_decode_display : decode 0b011100110000 = .ok (.display 0b00110000 true) := by decide
theorem test_decode_displayHex : decode 0b100100001111 = .ok (.displayHex 0b00001111 true) := by decide
theorem test_decode_displayJustDot : decode 0b101111111111 = .ok .displayJustDot := by decide
theorem test_decode_reserved :
    decode 0b110000000000 = .error (.reservedOp 0b110) ∧ decode 0b111111111111 = .error (.reservedOp 0b111) := by decide

/-- Canonical words of R57. -/
theorem test_encode_canonical :
    encode .configure = 0x000 ∧ encode .clear = 0x200 ∧ encode (.render 0x7E) = 0x47E ∧
    encode (.display 0x30 true) = 0x730 ∧ encode (.displayHex 10 false) = 0x80A ∧ encode .displayJustDot = 0xA00 := by
  decide

theorem test_decodeTableWord : decodeTableWord 16 0x730 = some (.display 0x30 true) ∧ decodeTableWord 16 0xC00 = none := by
  decide

/-! ### Operations (95 §2.6 to 2.11) -/

theorem test_configure_constructed :
    shown (exec .configure (demo 1)) = some (Octet.fill hi, some .ok) ∧
    ((nextOf (exec .configure (demo 1))).bind State.device?).map Device.mode = some (Octet.fill .output) := by decide

theorem test_configure_reblanks : shown (exec .configure (demo 0)) = some (Octet.fill hi, some .ok) := by decide

theorem test_clear : shown (exec .clear (demo 0)) = some (Octet.fill hi, some .ok) := by decide

theorem test_clear_before_configure : refusalOf (exec .clear (demo 1)) = some .notConfigured := by decide

theorem test_render_alternate :
    shown (exec (.render 0x55) (demo 0)) = some (⟨lo, hi, lo, hi, lo, hi, lo, hi⟩, some .ok) ∧
    padsAfter (exec (.render 0x55) (demo 0)) =
      some [some .low, some .high, some .low, some .high, some .high, some .low, some .high, some .low] := by decide

/-- Segment E is pin 1, position 0 (95 P5 step 1): the permutation is not left out. -/
theorem test_render_one_hot :
    padsAfter (exec (.render 0x04) (demo 0)) =
      some [some .low, some .high, some .high, some .high, some .high, some .high, some .high, some .high] := by decide

/-- S2 and 95 §2.9: `DISPLAY '0', dot` shows 0xFE. -/
theorem test_display_zero_dot :
    shown (exec (.display 0x30 true) (demo 0)) = some (⟨lo, lo, lo, lo, lo, lo, hi, lo⟩, some .ok) := by decide

/-- 95 P3: under the fixed policy 'K' is unsupported and leaves the lines; with the parity strap '#' and 'h' both
report UNSUPPORTED. -/
theorem test_display_policies :
    shown (exec (.display 0x4B false) (demo 3)) = some (Octet.fill hi, some .unsupported) ∧
    shown (exec (.display 0x68 false) (demo 4)) = some (⟨hi, lo, lo, hi, lo, lo, lo, hi⟩, some .unsupported) := by decide

/-- 95 §2.10: 0x3D for 13. -/
theorem test_displayHex_thirteen :
    shown (exec (.displayHex 13 false) (demo 3)) = some (⟨hi, lo, lo, lo, lo, hi, lo, hi⟩, some .ok) := by decide

/-- S5: 16 is rejected, not cut to 4 bits. -/
theorem test_displayHex_sixteen :
    shown (exec (.displayHex 16 false) (demo 0)) = some (rangeDevice.line, some .unsupported) := by decide

theorem test_displayJustDot :
    shown (exec .displayJustDot (demo 0)) = some (⟨hi, hi, hi, hi, hi, hi, hi, lo⟩, some .ok) := by decide

/-- S12. -/
theorem test_construct_permutes :
    ((nextOf (step (demo 0 [.construct { policy := .range } (silkscreen 100)]))).bind (State.live? · 5)).map Device.pin =
      some (modulePins 100) := by decide

/-- S6 and 95 §2.6: n = 0, 7, 9; a repeated handle. -/
theorem test_construct_counts :
    ([0, 7, 9].map fun n => (nextOf (step (demo 0 [.construct { policy := .range }
      ((List.range n).map fun i => line (100 + i))]))).map fun t => (t.slots.length, t.result)) =
      List.replicate 3 (some (5, some .wrongPinCount)) ∧
    refusalOf (step (demo 0 [.construct { policy := .range } (line 101 :: eight 101 |>.take 8)])) =
      some .repeatedHandle := by decide

/-- R113: the handles are counted before they are looked at. -/
theorem test_construct_count_first :
    (nextOf (step (demo 0 [.construct { policy := .range } [line 1, line 1, line 3]]))).map State.result =
      some (some .wrongPinCount) := by decide

/-- Log 11: which ground is named where several hold, from all four down to one. -/
theorem test_construct_refusal_order :
    ([line 3 :: line 3 :: silkscreen 0, line 3 :: silkscreen 0, line 3 :: eight 101, eight 101].map fun pins =>
      refusalOf (step (demoBadList [.construct { policy := .range } (pins.take 8)]))) =
    [some .repeatedHandle, some .sharedHandle, some .invalidHandle, some .illFormedFixedList] := by decide

theorem test_result_codes : [Result.ok, .unsupported, .wrongPinCount].map resultCode = [0, 1, 2] := by decide

/-- The first step after reset runs a placed word, on a configured Device (log 7). -/
theorem test_placed_word_runs :
    shown (step (State.reset.withFetchWord 16 0x638)) = some (⟨lo, lo, lo, lo, lo, lo, lo, hi⟩, some .ok) ∧
    MachineInv (State.reset.withFetchWord 16 0x638) := by decide

/-! ### Witnesses: for each statement with hypotheses, a state and operands that meet them all -/

theorem wit_DecodedWordIsCanonicalOnUsedBits :
    decode 0x57E = .ok (.render 0x7E) ∧ decode 0x1FF = .ok .configure ∧ decode 0xBFF = .ok .displayJustDot := by decide

theorem wit_IgnoredFieldsMakeNoDifference :
    (opField 0x000 = opField 0x1FF ∧ opField 0x1FF = 0b000#3) ∧ (opField 0x200 = opField 0x3A5 ∧ opField 0x200 = 0b001#3) ∧
    (opField 0xA00 = opField 0xBFF ∧ opField 0xA00 = 0b101#3) ∧
    (opField 0x47E = 0b010#3 ∧ opField 0x57E = 0b010#3 ∧ argField 0x47E = argField 0x57E) ∧
    ((demo 0).live? 0 = some rangeDevice ∧ rangeDevice.configured = true) ∧
    opField 0xC00 = opField 0xDFF := by decide

theorem wit_ReservedOpsAreRefused :
    (demo 0 [.command 0 0xC00]).pending = [.command 0 0xC00] ∧ opField 0xC00 = 6 ∧
    (demo 0 [.command 9 0xFFF]).pending = [.command 9 0xFFF] ∧ opField 0xFFF = 7 := by decide

theorem wit_StepRunsIssuedCommand :
    (demo 0 [.command 3 0x90F]).pending = [.command 3 0x90F] ∧ decode 0x90F = .ok (.displayHex 15 true) := by decide

theorem wit_FixedSearchAnswersMatchingEntry :
    FixedListWf true defaultFixedList ∧ FixedListWf false defaultFixedList ∧
    (0x49 ∈ defaultFixedList ∧ searchKey true 0x49 = searchKey true 0x69) ∧
    (∀ e ∈ defaultFixedList, searchKey true e ≠ searchKey true 0x4A) := by decide

theorem wit_FixedSearchIsOrderFree :
    FixedListWf true defaultFixedList ∧ defaultFixedList.Perm defaultFixedList.reverse ∧
    (0x2E ∈ defaultFixedList ∧ searchKey true 0x2E = searchKey true 0x2E) :=
  ⟨by decide, (List.reverse_perm _).symm, by decide⟩

theorem wit_FixedCaseFoldStrap : FixedListWf false defaultFixedList ∧ 0x2E ∈ defaultFixedList ∧ 0x61 ∉ defaultFixedList := by
  decide

theorem wit_HexPathMap : 15 < (16 : HexValue).toNat ∧ 15 < (255 : HexValue).toNat := by decide

theorem wit_ForceDpOnlyForDotGlyph :
    resolveChar defaultTables rangeDevice.straps 0x2E = .resolved 38 true ∧
    resolveChar defaultTables fixedDevice.straps 0x2E = .resolved 38 true ∧
    resolveChar defaultTables rangeDevice.straps 0x2D = .resolved 37 false ∧
    resolveHex 15 = .resolved 15 false ∧
    ((demo 3).device? = some fixedDevice ∧ fixedDevice.configured = true ∧
      resolveChar (demo 3).tables fixedDevice.straps 0x2E ≠ .unsupported) ∧
    RomAdmissible (demo 3).tables.glyphRom := by decide

theorem wit_HexTenShowsLetterA :
    (demo 0).device? = some rangeDevice ∧ rangeDevice.straps.policy = .range ∧
    rangeDevice.straps.rangeStatusParity = false := by decide

theorem wit_SharedGlyphsLeaveSamePicture :
    (demo 4).device? = some parityDevice ∧ parityDevice.straps.policy = .range ∧
    RomAdmissible (demo 4).tables.glyphRom := by decide

theorem wit_PermutationFromSilkscreenToLogical : (eight 1).length = 8 := by decide

theorem wit_ConstructRemapsPins :
    (demo 0 [.construct { policy := .fixed } (silkscreen 100)]).pending =
      [.construct { policy := .fixed } [line 101, line 102, line 104, line 105, line 106, line 107, line 109, line 110]] ∧
    HandlesFree (silkscreen 100) (demo 0).owned ∧ HandlesValid (silkscreen 100) (demo 0).invalidHandles ∧
    FixedListWf true (demo 0).tables.fixedList := by decide

theorem wit_WrongPinCountMakesNoDevice :
    (eight 1 ++ eight 9).length ≠ 8 ∧ ((eight 1).take 7).length ≠ 8 ∧
    ((eight 101).length = 8 ∧ (nextOf (step (demo 0 [.construct { policy := .range } (eight 101)]))).isSome = true) ∧
    (nextOf (exec .clear (demo 0))).isSome = true := by decide

/-- Each clause in one state with the construction issued, two of them where a second ground holds as well. -/
theorem wit_UnfitBuildsAreRefused :
    (∃ pins, (demoBadList [.construct { policy := .range } pins]).pending = [.construct { policy := .range } pins] ∧
      pins.length = 8 ∧ ¬ pins.Nodup ∧ (∃ h ∈ pins, h ∈ (demoBadList []).owned)) ∧
    (∃ pins, (demoBadList [.construct { policy := .range } pins]).pending = [.construct { policy := .range } pins] ∧
      pins.length = 8 ∧ pins.Nodup ∧ (∃ h ∈ pins, h ∈ (demoBadList []).owned) ∧ ¬ HandlesValid pins (demoBadList []).invalidHandles) ∧
    (∃ pins, (demoBadList [.construct { policy := .range } pins]).pending = [.construct { policy := .range } pins] ∧
      pins.length = 8 ∧ HandlesFree pins (demoBadList []).owned ∧ ¬ HandlesValid pins (demoBadList []).invalidHandles ∧
      ¬ FixedListWf true (demoBadList []).tables.fixedList) ∧
    (∃ pins, (demoBadList [.construct { policy := .range } pins]).pending = [.construct { policy := .range } pins] ∧
      pins.length = 8 ∧ HandlesFree pins (demoBadList []).owned ∧ HandlesValid pins (demoBadList []).invalidHandles ∧
      ¬ FixedListWf true (demoBadList []).tables.fixedList) :=
  ⟨⟨line 1 :: (silkscreen 0).take 7, by decide⟩, ⟨line 3 :: (silkscreen 0).take 7, by decide⟩,
    ⟨line 3 :: (eight 101).take 7, by decide⟩, ⟨eight 101, by decide⟩⟩

theorem wit_ConfigureBlanksDevice :
    (demo 1).device? = some freshDevice ∧ freshDevice.configured = false ∧ (demo 0).device? = some rangeDevice := by decide

/-- ConfigureAgainOnlyReblanks, ClearDarkensAllLines, RenderDrivesBitmask, JustDotLightsOnlyDp, PadViewOfRenderedMask,
LastLineWriteWins, ParityStrapChangesOnlyResult's and LineLevelsAreNeverRead's first hypotheses. -/
theorem wit_configured_device :
    (demo 0).device? = some rangeDevice ∧ rangeDevice.configured = true ∧
    (demo 3).device? = some fixedDevice ∧ fixedDevice.configured = true := by decide

theorem wit_DisplayShowsResolvedGlyph :
    (demo 4).device? = some parityDevice ∧ parityDevice.configured = true ∧
    resolveChar (demo 4).tables parityDevice.straps 0x5F = .resolved 40 false ∧
    (demo 3).device? = some fixedDevice ∧ fixedDevice.configured = true ∧
    resolveChar (demo 3).tables fixedDevice.straps 0x69 = .resolved 18 false := by decide

theorem wit_DisplayRejectsUnsupported :
    (demo 0).device? = some rangeDevice ∧ rangeDevice.configured = true ∧
    resolveChar (demo 0).tables rangeDevice.straps 0x23 = .unsupported ∧
    (demo 3).device? = some fixedDevice ∧ fixedDevice.configured = true ∧
    resolveChar (demo 3).tables fixedDevice.straps 0x4A = .unsupported := by decide

theorem wit_DisplayHexShowsDigit :
    (0 : HexValue).toNat ≤ 15 ∧ (15 : HexValue).toNat ≤ 15 ∧
    (demo 3).device? = some fixedDevice ∧ fixedDevice.configured = true := by decide

theorem wit_DisplayHexRejectsAboveFifteen :
    15 < (16 : HexValue).toNat ∧ 15 < (255 : HexValue).toNat ∧
    (demo 0).device? = some rangeDevice ∧ rangeDevice.configured = true := by decide

theorem wit_JustDotLightsOnlyDp :
    (demo 0).device? = some rangeDevice ∧ rangeDevice.configured = true ∧ RomAdmissible (demo 0).tables.glyphRom ∧
    resolveChar (demo 0).tables rangeDevice.straps 0x2E ≠ .unsupported := by decide

theorem wit_UnreadyDevicesAreRefused :
    (demo 2).device? = none ∧ (demo 5).device? = none ∧
    ((demo 1).device? = some freshDevice ∧ freshDevice.configured = false ∧ Instr.displayJustDot ≠ .configure) := by decide

theorem wit_LegalOperationsComplete :
    Legal .configure (demo 1) ∧ Legal .clear (demo 0) ∧ Legal (.render 0xFF) (demo 0) ∧
    Legal (.display 0x00 true) (demo 4) ∧ Legal (.displayHex 255 true) (demo 3) ∧ Legal .displayJustDot (demo 3) :=
  ⟨⟨_, rfl⟩, ⟨_, rfl, rfl⟩, ⟨_, rfl, rfl⟩, ⟨_, rfl, rfl⟩, ⟨_, rfl, rfl⟩, ⟨_, rfl, rfl⟩⟩

/-- Both outcomes: lines written, and a condition raised. -/
theorem wit_RuntimeOperationFrame :
    (nextOf (exec (.display 0x38 false) (demo 0))).isSome = true ∧
    (nextOf (exec (.display 0x23 false) (demo 0))).isSome = true := by decide

theorem wit_UnsupportedChangesNothing :
    (demo 0).device? = some rangeDevice ∧ rangeDevice.straps.rangeStatusParity = false ∧
    (nextOf (exec (.display 0x23 true) (demo 0))).map State.result = some (some .unsupported) ∧
    (nextOf (exec (.displayHex 16 true) (demo 0))).map State.result = some (some .unsupported) := by decide

theorem wit_ParityStrapChangesOnlyResult :
    ((demo 0).device? = some rangeDevice ∧ rangeDevice.straps.rangeStatusParity = false ∧
      rangeDevice.straps.policy = .range ∧ (nextOf (exec (.display 0x38 false) (demo 0))).isSome = true) ∧
    ((demo 3).device? = some fixedDevice ∧ fixedDevice.straps.rangeStatusParity = false ∧
      (nextOf (exec (.display 0x38 false) (demo 3))).isSome = true) := by decide

/-- Slot 1 under a command to slot 0, a drop of slot 0 and a construction. -/
theorem wit_StepTouchesOnlyAddressedDevice :
    1 < (demo 0).slots.length ∧
    (nextOf (step (demo 0 [.command 0 0x200]))).isSome = true ∧ (nextOf (step (demo 0 [.drop 0]))).isSome = true ∧
    (nextOf (step (demo 0 [.construct { policy := .range } (eight 101)]))).isSome = true := by decide

theorem wit_StepKeepsPinsStrapsAndTables :
    (nextOf (step (demo 0 [.command 1 0x000]))).isSome = true ∧ (demo 0).live? 1 = some freshDevice ∧
    ((nextOf (step (demo 0 [.command 1 0x000]))).bind (State.live? · 1)).isSome = true ∧
    freshDevice.mode.get .a ≠ .output ∧ rangeDevice.mode.get .a = .output := by decide

theorem wit_LinesHoldBetweenOperations :
    (demo 0).pending = [] ∧ (demo 0 [.peripheral, .drop 0]).pending = .peripheral :: [.drop 0] := by decide

theorem wit_DropWritesNothing : (demo 0 [.drop 3]).pending = [.drop 3] ∧ (demo 0 [.drop 3]).live? 3 = some fixedDevice := by
  decide

/-- A configured Device with a line at each level, and one that is not configured. -/
theorem wit_LitMeansDrivenLow :
    (demo 0).device? = some rangeDevice ∧ rangeDevice.configured = true ∧ rangeDevice.line.get .a = .driven .low ∧
    rangeDevice.line.get .dp = .driven .high ∧ freshDevice.configured = false := by decide

theorem wit_StepKeepsInvariant :
    (MachineInv (demo 0 [.command 0 0x7AA]) ∧ (nextOf (step (demo 0 [.command 0 0x7AA]))).isSome = true) ∧
    MachineInv (demo 0 [.construct { policy := .range } (eight 101)]) ∧
    (nextOf (step (demo 0 [.construct { policy := .range } (eight 101)]))).isSome = true :=
  ⟨⟨by decide, by decide⟩, by decide, by decide⟩

theorem wit_LifecycleNeverRunsBackwards :
    (demo 0).phase 5 = .absent ∧ (demo 0).phase 1 = .constructed ∧ (demo 0).phase 0 = .configured ∧
    (demo 0).phase 2 = .dropped ∧
    ((nextOf (step (demo 0 [.construct { policy := .range } (eight 101)]))).map (State.phase · 5)) = some .constructed := by
  decide

theorem wit_LineLevelsAreNeverRead :
    (demo 0).device? = some rangeDevice ∧ (nextOf (exec .displayJustDot (demo 0))).isSome = true ∧
    (nextOf (exec (.display 0x23 false) (demo 0))).isSome = true ∧
    refusalOf (exec .clear (demo 1)) = some .notConfigured ∧ (demo 1).device? = some freshDevice := by decide

theorem wit_OperationsOnTwoDevicesCommute :
    0 ≠ 3 ∧ ∃ t u, exec (.render 0x80) { demo 0 with target := 0 } = .next t ∧
      exec (.display 0x4B true) { t with target := 3 } = .next u :=
  ⟨by decide, _, _, rfl, rfl⟩

/-- The pending list the statement assumes, in a state that meets every other hypothesis. -/
theorem wit_BringUpReachesThePads :
    ∃ s : State, s.pending = .construct { policy := .fixed } (silkscreen 100) :: .command s.slots.length 0x000 ::
        .command s.slots.length 0x47F :: [.command 0 0x200] ∧
      MachineInv s ∧ HandlesFree (silkscreen 100) s.owned ∧ HandlesValid (silkscreen 100) s.invalidHandles ∧
      FixedListWf true s.tables.fixedList ∧ decode 0x000 = .ok .configure ∧ decode 0x47F = .ok (.render 0x7F) :=
  ⟨demo 0 [.construct { policy := .fixed } (silkscreen 100), .command 5 0x000, .command 5 0x47F, .command 0 0x200],
    by decide, by decide, by decide, by decide, by decide, by decide, by decide⟩

/-- From `Handle` to another handle type, on a state whose step constructs a Device and one whose step refuses a
handle; and the machine at that other type constructs as well. -/
theorem wit_HandlesAreOpaque :
    Function.Injective (fun h : Handle => (h, true)) ∧
    (nextOf (step (demo 0 [.construct { policy := .range } (eight 101)]))).isSome = true ∧
    refusalOf (step (demo 0 [.construct { policy := .range } (line 3 :: (eight 101).take 7)])) = some .invalidHandle ∧
    (match stepAt ((demo 0 [.construct { policy := .range } (eight 101)]).rename fun h => (h, true)) with
      | .next t => decide (t.liveDevices.length = 5 ∧ t.result = some .ok)
      | .fault _ => false
      | .refused _ => false) = true :=
  ⟨fun a b h => (Prod.mk.inj h).1, by decide, by decide, by decide⟩

end Sys2Proof.Tests
end

/-! PROOF. The state's operations beyond Laws/: an operation as a function of the tables and the one Device it is
issued to, and a step by the host's next input. -/

namespace Sys2Proof.Machine

variable {H : Type}

/-! ### A step, by the host's next input -/

section step
variable [DecidableEq H] {run : Instr → State H → Answer H} {s : State H} {rest : List (HostInput H)}

theorem stepWith_nil (h : s.pending = []) : stepWith run s = idle s := by
  simp [stepWith, h]

theorem stepWith_construct {straps : Straps} {pins : List H} (h : s.pending = .construct straps pins :: rest) :
    stepWith run s = construct straps pins (s.consume rest) := by
  simp [stepWith, h]

theorem stepWith_command {k : Nat} {w : CommandWord} {i : Instr} (h : s.pending = .command k w :: rest)
    (hw : readCommand w = .ok i) : stepWith run s = run i (s.issue k rest) := by
  simp [stepWith, h, hw]

theorem stepWith_reserved {k : Nat} {w : CommandWord} {r : Refusal} (h : s.pending = .command k w :: rest)
    (hw : readCommand w = .error r) : stepWith run s = .refused r := by
  simp [stepWith, h, hw]

theorem stepWith_drop {k : Nat} (h : s.pending = .drop k :: rest) : stepWith run s = drop k (s.consume rest) := by
  simp [stepWith, h]

theorem stepWith_peripheral (h : s.pending = .peripheral :: rest) : stepWith run s = idle (s.consume rest) := by
  simp [stepWith, h]

end step

theorem readCommand_of_decode {w : CommandWord} {i : Instr} (h : decode w = .ok i) : readCommand w = .ok i := by
  simp [readCommand, h]

/-! ### Construction, by the first ground that holds (R113, R114, R164, R96) -/

section construct
variable [DecidableEq H] {straps : Straps} {pins : List H} {s : State H}

theorem construct_of_wrongCount (hl : pins.length ≠ Config.nseg) :
    construct straps pins s = .next (s.report .wrongPinCount) := by
  rw [construct, dif_neg hl, raise]

theorem construct_of_repeated (hl : pins.length = Config.nseg) (hn : ¬ pins.Nodup) :
    construct straps pins s = .refused .repeatedHandle := by
  rw [construct, dif_pos hl, if_pos hn]

theorem construct_of_shared (hl : pins.length = Config.nseg) (hn : pins.Nodup) (hf : ¬ HandlesFree pins s.owned) :
    construct straps pins s = .refused .sharedHandle := by
  rw [construct, dif_pos hl, if_neg (not_not_intro hn), if_pos hf]

theorem construct_of_invalid (hl : pins.length = Config.nseg) (hf : HandlesFree pins s.owned)
    (hv : ¬ HandlesValid pins s.invalidHandles) : construct straps pins s = .refused .invalidHandle := by
  rw [construct, dif_pos hl, if_neg (not_not_intro hf.1), if_neg (not_not_intro hf), if_pos hv]

theorem construct_of_illFormed (hl : pins.length = Config.nseg) (hf : HandlesFree pins s.owned)
    (hv : HandlesValid pins s.invalidHandles) (hw : ¬ FixedListWf straps.fixedCaseFold s.tables.fixedList) :
    construct straps pins s = .refused .illFormedFixedList := by
  rw [construct, dif_pos hl, if_neg (not_not_intro hf.1), if_neg (not_not_intro hf), if_neg (not_not_intro hv),
    if_pos hw]

theorem construct_of_fit (hl : pins.length = Config.nseg) (hf : HandlesFree pins s.owned)
    (hv : HandlesValid pins s.invalidHandles) (hw : FixedListWf straps.fixedCaseFold s.tables.fixedList) :
    construct straps pins s = .next ((s.add (newDevice straps pins hl)).report .ok) := by
  rw [construct, dif_pos hl, if_neg (not_not_intro hf.1), if_neg (not_not_intro hf), if_neg (not_not_intro hv),
    if_neg (not_not_intro hw)]

end construct

theorem drop_of_live {k : Nat} {s : State H} {d : Device H} (h : s.live? k = some d) :
    drop k s = .next (s.release k).silent := by
  simp [drop, h]

theorem drop_of_not_live {k : Nat} {s : State H} (h : s.live? k = none) : drop k s = .refused .noDevice := by
  simp [drop, h]

/-! ### An operation, as a function of the tables and the Device it is issued to -/

/-- Whether an operation has a meaning on a Device (R163). -/
def Device.ready (d : Device H) (i : Instr) : Bool := d.configured || decide (i = .configure)

/-- The Device an operation leaves: outputs enabled and what the multiplexer selects on its lines, or the Device as it
was where the resolver rejects. -/
def Device.after (tables : Tables) (i : Instr) (d : Device H) : Device H :=
  match muxOutput tables d.straps i with
  | some b => { d with mode := Octet.fill .output, line := drivenLines b }
  | none => d

/-- The result an operation reports. -/
def reportOf (tables : Tables) (straps : Straps) (i : Instr) : Result :=
  match muxOutput tables straps i with
  | some _ => resultAfterWrite straps i
  | none => .unsupported

@[simp] theorem Device.after_pin (tables : Tables) (i : Instr) (d : Device H) : (d.after tables i).pin = d.pin := by
  unfold Device.after; split <;> rfl

@[simp] theorem Device.after_straps (tables : Tables) (i : Instr) (d : Device H) :
    (d.after tables i).straps = d.straps := by
  unfold Device.after; split <;> rfl

/-- An operation takes no line out of output-drive mode (R122). -/
theorem Device.after_mode_output {d : Device H} {l : Segment} (h : d.mode.get l = .output) (tables : Tables)
    (i : Instr) : (d.after tables i).mode.get l = .output := by
  unfold Device.after
  split
  · exact Octet.get_fill ..
  · exact h

/-- Putting the Device an operation is issued to back in its slot changes nothing. -/
theorem State.put_device {s : State H} {d : Device H} (h : s.device? = some d) : s.put d = s := by
  have hk := State.live?_eq_some.mp h
  obtain ⟨hlt, hget⟩ := List.getElem?_eq_some_iff.mp hk
  simp [State.put, ← hget]

theorem operation_of_none (i : Instr) {s : State H} (h : s.device? = none) : operation i s = .refused .noDevice := by
  cases i <;> simp [operation, execConfigure, execClear, execRender, execDisplay, execDisplayHex, execDisplayJustDot,
    withConfigured, withDevice_of_none h]

theorem operation_of_unready {i : Instr} {s : State H} {d : Device H} (h : s.device? = some d)
    (hr : d.ready i = false) : operation i s = .refused .notConfigured := by
  obtain ⟨hc, hi⟩ : d.configured = false ∧ i ≠ .configure := by simpa [Device.ready] using hr
  cases i with
  | configure => exact absurd rfl hi
  | _ => exact withConfigured_of_not h hc _

theorem operation_of_ready {i : Instr} {s : State H} {d : Device H} (h : s.device? = some d)
    (hr : d.ready i = true) :
    operation i s = .next ((s.put (d.after s.tables i)).report (reportOf s.tables d.straps i)) := by
  by_cases hc : d.configured = true
  · have hm := (Device.configured_iff d).mp hc
    rw [operation_of_configured i h hc]
    cases hx : muxOutput s.tables d.straps i with
    | some b => simp [Device.after, reportOf, hx, ← hm]
    | none => simp [Device.after, reportOf, hx, State.put_device h]
  · obtain rfl : i = .configure := by simpa [Device.ready, hc] using hr
    simp only [operation, execConfigure, withDevice_of_some h, driveAndReport, Device.drive_eq]
    rfl

/-- Where an operation answers a next state, it is the Device's own next state put in its slot. -/
theorem operation_next_iff {i : Instr} {s t : State H} :
    operation i s = .next t ↔ ∃ d, s.device? = some d ∧ d.ready i = true ∧
      t = (s.put (d.after s.tables i)).report (reportOf s.tables d.straps i) := by
  constructor
  · intro h
    obtain ⟨d, hd, hr⟩ := operation_next_device h
    have hr : d.ready i = true := by simpa [Device.ready] using hr
    exact ⟨d, hd, hr, by simpa [operation_of_ready hd hr, eq_comm] using h⟩
  · rintro ⟨d, hd, hr, rfl⟩
    exact operation_of_ready hd hr

end Sys2Proof.Machine

/-! PROOF. What a step may do to the Devices: the four effects on the slots, and the move of a single slot. -/

namespace Sys2Proof.Machine

variable {H : Type}

/-- What an operation may make of the Device it is issued to (R122): handles, straps and output mode stay. -/
structure Device.Keeps (d d' : Device H) : Prop where
  pin : d'.pin = d.pin
  straps : d'.straps = d.straps
  output : ∀ l, d.mode.get l = .output → d'.mode.get l = .output

theorem Device.Keeps.refl (d : Device H) : d.Keeps d := ⟨rfl, rfl, fun _ h => h⟩

theorem Device.after_keeps (tables : Tables) (i : Instr) (d : Device H) : d.Keeps (d.after tables i) :=
  ⟨d.after_pin .., d.after_straps .., fun _ h => Device.after_mode_output h tables i⟩

theorem Device.Keeps.configured {d d' : Device H} (h : d.Keeps d') (hc : d.configured = true) :
    d'.configured = true := by
  rw [Device.configured_iff] at hc ⊢
  exact Octet.ext_get fun l => by simp [h.output l, hc]

/-- The four effects of a step on the slots, with the input that has each. -/
inductive SlotsEffect (s t : State H) : Prop
  | held (slots : t.slots = s.slots)
  | built (d : Device H) (fresh : d.configured = false) (slots : t.slots = s.slots ++ [.live d])
  | operated (k : Nat) (w : CommandWord) (rest : List (HostInput H)) (d d' : Device H)
      (input : s.pending = .command k w :: rest) (live : s.live? k = some d) (keeps : d.Keeps d')
      (slots : t.slots = s.slots.set k (.live d'))
  | released (k : Nat) (rest : List (HostInput H)) (d : Device H) (input : s.pending = .drop k :: rest)
      (live : s.live? k = some d) (slots : t.slots = s.slots.set k .dropped)

theorem newDevice_not_configured (straps : Straps) (pins : List H) (h : pins.length = Config.nseg) :
    (newDevice straps pins h).configured = false := rfl

/-- Everything a step does to the tables, the handles' validity and the slots. -/
theorem step_effect {s t : State} (h : step s = .next t) :
    t.tables = s.tables ∧ t.invalidHandles = s.invalidHandles ∧ SlotsEffect s t := by
  obtain ⟨-, rfl⟩ | ⟨straps, pins, rest, -, h⟩ | ⟨k, w, rest, i, hp, -, h⟩ | ⟨k, rest, hp, h⟩ | ⟨rest, -, rfl⟩ :=
    step_next h
  · exact ⟨rfl, rfl, .held rfl⟩
  · obtain ⟨-, rfl⟩ | ⟨hl, -, -, -, rfl⟩ := construct_next h
    · exact ⟨rfl, rfl, .held rfl⟩
    · exact ⟨rfl, rfl, .built _ (newDevice_not_configured straps pins hl) rfl⟩
  · rw [exec_eq_operation] at h
    obtain ⟨d, hd, -, rfl⟩ := operation_next_iff.mp h
    exact ⟨rfl, rfl, .operated k w rest d _ hp hd (d.after_keeps _ i) rfl⟩
  · obtain ⟨d, hd, rfl⟩ := drop_next h
    exact ⟨rfl, rfl, .released k rest d hp hd rfl⟩
  · exact ⟨rfl, rfl, .held rfl⟩

/-- What a step may do to one slot, none where there is none yet. -/
inductive SlotMove : Option (Slot H) → Option (Slot H) → Prop
  | stays (slot : Option (Slot H)) : SlotMove slot slot
  | built (d : Device H) (fresh : d.configured = false) : SlotMove none (some (.live d))
  | operated (d d' : Device H) (keeps : d.Keeps d') : SlotMove (some (.live d)) (some (.live d'))
  | released (d : Device H) : SlotMove (some (.live d)) (some .dropped)

/-- Replacing one slot's content by a move of it moves every slot. -/
theorem slotMove_set {slots : List (Slot H)} {k : Nat} {old new : Slot H} (hk : slots[k]? = some old)
    (hm : SlotMove (some old) (some new)) (j : Nat) : SlotMove slots[j]? (slots.set k new)[j]? := by
  by_cases hj : k = j
  · subst hj
    rwa [hk, List.getElem?_set_self (List.getElem?_eq_some_iff.mp hk).1]
  · rw [List.getElem?_set_ne hj]
    exact .stays _

theorem slotMove_append {slots : List (Slot H)} {d : Device H} (hc : d.configured = false) (j : Nat) :
    SlotMove slots[j]? (slots ++ [.live d])[j]? := by
  rcases Nat.lt_trichotomy j slots.length with hj | rfl | hj
  · rw [List.getElem?_append_left hj]
    exact .stays _
  · simpa using SlotMove.built d hc
  · rw [List.getElem?_eq_none (by omega), List.getElem?_eq_none (by simp; omega)]
    exact .stays _

theorem SlotsEffect.slotMove {s t : State H} (h : SlotsEffect s t) (j : Nat) : SlotMove s.slots[j]? t.slots[j]? := by
  cases h with
  | held slots => exact slots ▸ .stays _
  | built d fresh slots => exact slots ▸ slotMove_append fresh j
  | operated k w rest d d' input live keeps slots =>
    exact slots ▸ slotMove_set (State.live?_eq_some.mp live) (.operated d d' keeps) j
  | released k rest d input live slots => exact slots ▸ slotMove_set (State.live?_eq_some.mp live) (.released d) j

/-- A slot that is not the one the input is addressed to stays. -/
theorem SlotsEffect.getElem?_eq {s t : State H} (h : SlotsEffect s t) {j : Nat} (hj : j < s.slots.length)
    (hcmd : ∀ k w rest, s.pending = .command k w :: rest → k ≠ j)
    (hdrop : ∀ k rest, s.pending = .drop k :: rest → k ≠ j) : t.slots[j]? = s.slots[j]? := by
  cases h with
  | held slots => rw [slots]
  | built d fresh slots => rw [slots, List.getElem?_append_left hj]
  | operated k w rest d d' input live keeps slots => rw [slots, List.getElem?_set_ne (hcmd k w rest input)]
  | released k rest d input live slots => rw [slots, List.getElem?_set_ne (hdrop k rest input)]

/-! ### The phase of a slot (R18) -/

/-- The phase of what a slot holds. -/
def phaseOf : Option (Slot H) → Phase
  | none => .absent
  | some (.live d) => if d.configured then .configured else .constructed
  | some .dropped => .dropped

theorem State.phase_eq (s : State H) (k : Nat) : s.phase k = phaseOf s.slots[k]? := by
  rcases h : s.slots[k]? with _ | ⟨d⟩ | _ <;> simp [State.phase, phaseOf, h]

/-- No move takes a slot back in the order of R18, and one that holds nothing yet becomes constructed. -/
theorem SlotMove.phase {a b : Option (Slot H)} (h : SlotMove a b) :
    phaseRank (phaseOf a) ≤ phaseRank (phaseOf b) ∧
      (phaseOf a = .absent → phaseOf b = .absent ∨ phaseOf b = .constructed) := by
  cases h with
  | stays => exact ⟨le_rfl, .inl⟩
  | built d fresh => simp [phaseOf, fresh, phaseRank]
  | operated d d' keeps =>
    cases hc : d.configured with
    | true => simp [phaseOf, hc, keeps.configured hc]
    | false => cases hc' : d'.configured <;> simp [phaseOf, hc, hc', phaseRank]
  | released d => cases hc : d.configured <;> simp [phaseOf, hc, phaseRank]

theorem SlotMove.keeps {d d' : Device H} (h : SlotMove (some (.live d)) (some (.live d'))) : d.Keeps d' := by
  cases h with
  | stays => exact .refl d
  | operated _ _ keeps => exact keeps

end Sys2Proof.Machine

namespace Sys2Proof

open Sys2Proof.Machine

/-- Settles O47: what a step does to a slot is one of four moves, and none goes back in the order of R18. -/
theorem lifecycleNeverRunsBackwards : Obligations.LifecycleNeverRunsBackwards := by
  intro s t h k
  obtain ⟨-, -, he⟩ := step_effect h
  simpa only [State.phase_eq] using (he.slotMove k).phase

/-- Settles O38: a step sets the slot its input is addressed to, or adds one after all others. -/
theorem stepTouchesOnlyAddressedDevice : Obligations.StepTouchesOnlyAddressedDevice := by
  intro s t h j hj hcmd hdrop
  obtain ⟨-, -, he⟩ := step_effect h
  exact he.getElem?_eq hj hcmd hdrop

/-- Settles O39: the only move from a live Device to a live one keeps handles, straps and output mode. -/
theorem stepKeepsPinsStrapsAndTables : Obligations.StepKeepsPinsStrapsAndTables := by
  intro s t h
  obtain ⟨htables, hinvalid, he⟩ := step_effect h
  refine ⟨htables, hinvalid, fun k d d' hd hd' => ?_⟩
  have hm := he.slotMove k
  rw [State.live?_eq_some.mp hd, State.live?_eq_some.mp hd'] at hm
  exact ⟨hm.keeps.pin, hm.keeps.straps, hm.keeps.output⟩

end Sys2Proof

/-! PROOF. What the machine does not read: the line levels, the other Devices, the last result. -/

namespace Sys2Proof.Machine

variable {H : Type}

/-- The Device an operation leaves does not depend on the lines before it, where it writes them. -/
theorem Device.after_of_line {tables : Tables} {i : Instr} {d : Device H} {b : Mask}
    (hm : muxOutput tables d.straps i = some b) (line : Octet Line) :
    Device.after tables i { d with line := line } = d.after tables i := by
  simp [Device.after, hm]

theorem Device.after_of_raise {tables : Tables} {i : Instr} {d : Device H}
    (hm : muxOutput tables d.straps i = none) : d.after tables i = d := by
  simp [Device.after, hm]

theorem State.put_put (s : State H) (d d' : Device H) : (s.put d).put d' = s.put d' := by
  simp [State.put]

/-- An operation on the same Device at two lines: refused alike, or with the same result and, where it writes lines,
the same machine. -/
theorem operation_line_cases (i : Instr) {s : State H} {d : Device H} (hd : s.device? = some d) (line : Octet Line) :
    (operation i s = .refused .notConfigured ∧
      operation i (s.put { d with line := line }) = .refused .notConfigured) ∨
    ∃ t t', operation i s = .next t ∧ operation i (s.put { d with line := line }) = .next t' ∧ t'.result = t.result ∧
      (t' = t ∨ (t.slots = s.slots ∧ t'.slots = (s.put { d with line := line }).slots)) := by
  have hd' := State.device?_put hd { d with line := line }
  cases hr : d.ready i with
  | false => exact .inl ⟨operation_of_unready hd hr, operation_of_unready hd' hr⟩
  | true =>
    refine .inr ⟨_, _, operation_of_ready hd hr, operation_of_ready hd' hr, rfl, ?_⟩
    cases hm : muxOutput s.tables d.straps i with
    | some b => exact .inl (by rw [State.put_tables, Device.after_of_line hm, State.put_put])
    | none =>
      refine .inr ⟨?_, ?_⟩
      · rw [Device.after_of_raise hm, State.put_device hd]; rfl
      · rw [State.put_tables, Device.after_of_raise (d := { d with line := line }) hm, State.put_put]; rfl

/-- An operation issued to slot `k`: it reads the tables and the Device there, and writes the slot and the result. -/
theorem operation_at_next_iff {i : Instr} {s t : State H} {k : Nat} :
    operation i { s with target := k } = .next t ↔ ∃ d, s.live? k = some d ∧ d.ready i = true ∧
      t = { s with target := k, slots := s.slots.set k (.live (d.after s.tables i)),
                   result := some (reportOf s.tables d.straps i) } :=
  operation_next_iff

theorem State.live?_of_set_ne {s t : State H} {j k : Nat} {slot : Slot H} (h : t.slots = s.slots.set j slot)
    (hne : j ≠ k) : t.live? k = s.live? k := by
  simp only [State.live?, h, List.getElem?_set_ne hne]

/-! ### The result -/

/-- The state with any other result in it. -/
def State.withResult (s : State H) (r : Option Result) : State H := { s with result := r }

@[simp] theorem State.withResult_pending (s : State H) (r : Option Result) : (s.withResult r).pending = s.pending := rfl

/-- An operation overwrites the result. -/
theorem exec_withResult (i : Instr) (s : State) (r : Option Result) : exec i (s.withResult r) = exec i s := by
  cases i <;> rfl

/-- A step overwrites the result where the operations do. -/
theorem stepWith_withResult [DecidableEq H] {run : Instr → State H → Answer H} {r : Option Result}
    (hrun : ∀ i s, run i (s.withResult r) = run i s) (s : State H) :
    stepWith run (s.withResult r) = stepWith run s := by
  have hr := s.withResult_pending r
  rcases hp : s.pending with _ | ⟨⟨straps, pins⟩ | ⟨k, w⟩ | ⟨k⟩ | _, rest⟩
  · rw [stepWith_nil hp, stepWith_nil (hr.trans hp)]; rfl
  · rw [stepWith_construct hp, stepWith_construct (hr.trans hp)]; rfl
  · cases hw : readCommand w with
    | ok i => rw [stepWith_command hp hw, stepWith_command (hr.trans hp) hw]; exact hrun i (s.issue k rest)
    | error e => rw [stepWith_reserved hp hw, stepWith_reserved (hr.trans hp) hw]
  · rw [stepWith_drop hp, stepWith_drop (hr.trans hp)]; rfl
  · rw [stepWith_peripheral hp, stepWith_peripheral (hr.trans hp)]; rfl

/-! ### The state before the host has done anything -/

@[simp] theorem State.reset_liveDevices : State.reset.liveDevices = [] := rfl

theorem State.reset_romAdmissible : RomAdmissible State.reset.tables.glyphRom := by decide

end Sys2Proof.Machine

namespace Sys2Proof

open Sys2Proof.Machine

/-- Settles O50: where an operation writes lines it writes all eight, and where it raises it writes none. -/
theorem lineLevelsAreNeverRead : Obligations.LineLevelsAreNeverRead := by
  intro i s d line hd
  simp only [exec_eq_operation]
  obtain ⟨h, h'⟩ | ⟨t, t', h, h', hrest⟩ := operation_line_cases i hd line
  · exact ⟨fun r hr => h'.trans (h.symm.trans hr), fun u hu => by cases h.symm.trans hu⟩
  · refine ⟨fun r hr => (by cases h.symm.trans hr), fun u hu => ?_⟩
    cases h.symm.trans hu
    exact ⟨t', h', hrest⟩

/-- Settles O51: each operation reads its own slot alone, and the two writes are to different slots. -/
theorem operationsOnTwoDevicesCommute : Obligations.OperationsOnTwoDevicesCommute := by
  intro i i' s t u j k hne h h'
  simp only [exec_eq_operation] at h h' ⊢
  obtain ⟨d, hd, hr, rfl⟩ := operation_at_next_iff.mp h
  obtain ⟨d', hd', hr', rfl⟩ := operation_at_next_iff.mp h'
  rw [State.live?_of_set_ne rfl hne] at hd'
  refine ⟨_, _, operation_at_next_iff.mpr ⟨d', hd', hr', rfl⟩, operation_at_next_iff.mpr ⟨d, ?_, hr, rfl⟩,
    List.set_comm _ _ hne.symm, rfl, rfl, rfl, rfl⟩
  rwa [State.live?_of_set_ne rfl hne.symm]

/-- Settles O49: neither an operation nor a step of another kind reads the result. -/
theorem resultIsNeverRead : Obligations.ResultIsNeverRead := by
  intro s r
  exact stepWith_withResult (fun i u => exec_withResult i u r) s

/-! ### Single inputs and the reset -/

/-- Settles O6, by the equation of a step whose next input is a command word. -/
theorem stepRunsIssuedCommand : Obligations.StepRunsIssuedCommand := by
  intro s k w rest i hp hw
  exact stepWith_command hp (readCommand_of_decode hw)

/-- Settles O41, by the equation of a step whose next input is a drop. -/
theorem dropWritesNothing : Obligations.DropWritesNothing := by
  intro s k d rest hp hd
  exact (stepWith_drop hp).trans (drop_of_live hd)

/-- Settles O44: the default ROM is admissible, and there is no Device yet. -/
theorem resetMeetsInvariant : Obligations.ResetMeetsInvariant :=
  ⟨State.reset_romAdmissible, by simp, by simp⟩

/-- Settles O45: no slot exists yet, and every other field is as `State.reset` writes it. -/
theorem resetHasNoDevice : Obligations.ResetHasNoDevice :=
  ⟨fun _ => rfl, rfl, rfl, rfl, rfl⟩

end Sys2Proof

/-! PROOF. The handle type is a parameter: every operation, and so every step, commutes with an injective renaming. -/

namespace Sys2Proof.Machine

variable {H K : Type}

@[simp] theorem renameAnswer_next (f : H → K) (t : State H) : renameAnswer f (.next t) = .next (t.rename f) := rfl
/-- A refusal names no handle. -/
@[simp] theorem renameAnswer_refused (f : H → K) (r : Refusal) :
    renameAnswer f (.refused r) = .refused r := rfl

@[simp] theorem Device.rename_after (f : H → K) (tables : Tables) (i : Instr) (d : Device H) :
    (d.after tables i).rename f = (d.rename f).after tables i := by
  have hm : muxOutput tables (d.rename f).straps i = muxOutput tables d.straps i := rfl
  cases hx : muxOutput tables d.straps i with
  | some b => simp only [Device.after, hm, hx]; rfl
  | none => simp only [Device.after, hm, hx]

/-- An operation looks at no handle, so any renaming will do. -/
theorem operation_rename (f : H → K) (i : Instr) (s : State H) :
    operation i (s.rename f) = renameAnswer f (operation i s) := by
  cases hd : s.device? with
  | none => rw [operation_of_none i hd, operation_of_none i (by simp [hd])]; rfl
  | some d =>
    have hd' : (s.rename f).device? = some (d.rename f) := by simp [hd]
    cases hr : d.ready i with
    | false => rw [operation_of_unready hd hr, operation_of_unready hd' hr]; rfl
    | true =>
      rw [operation_of_ready hd hr, operation_of_ready hd' hr, renameAnswer_next, State.rename_report,
        State.rename_put, Device.rename_after]
      rfl

theorem drop_rename (f : H → K) (k : Nat) (s : State H) : drop k (s.rename f) = renameAnswer f (drop k s) := by
  cases hd : s.live? k with
  | none => rw [drop_of_not_live hd, drop_of_not_live (by simp [hd])]; rfl
  | some d =>
    rw [drop_of_live hd, drop_of_live (d := d.rename f) (by simp [hd]), renameAnswer_next, State.rename_silent,
      State.rename_release]

theorem newDevice_rename (f : H → K) (straps : Straps) (pins : List H) (h : pins.length = Config.nseg) :
    (newDevice straps pins h).rename f = newDevice straps (pins.map f) (by simpa using h) := by
  simp only [newDevice, Device.rename, remap_map]

section injective
variable {f : H → K} (hf : Function.Injective f)
include hf

/-- What `construct` asks of the handles it is given, an injective renaming neither makes true nor false. -/
theorem handlesValid_map {pins invalid : List H} :
    HandlesValid (pins.map f) (invalid.map f) ↔ HandlesValid pins invalid := by
  simp only [HandlesValid, List.forall_mem_map, List.mem_map_of_injective hf]

theorem handlesFree_map {pins owned : List H} :
    HandlesFree (pins.map f) (owned.map f) ↔ HandlesFree pins owned :=
  and_congr (List.nodup_map_iff hf) (handlesValid_map hf)

variable [DecidableEq H] [DecidableEq K]

/-- `construct` takes the same branch on renamed handles: one case for each ground, in the order of log 11. -/
theorem construct_rename (straps : Straps) (pins : List H) (s : State H) :
    construct straps (pins.map f) (s.rename f) = renameAnswer f (construct straps pins s) := by
  by_cases hl : pins.length = Config.nseg
  case neg => rw [construct_of_wrongCount hl, construct_of_wrongCount (by simpa using hl)]; rfl
  have hl' : (pins.map f).length = Config.nseg := by simpa using hl
  by_cases hn : pins.Nodup
  case neg => rw [construct_of_repeated hl hn, construct_of_repeated hl' (mt (List.nodup_map_iff hf).mp hn)]; rfl
  have hn' : (pins.map f).Nodup := (List.nodup_map_iff hf).mpr hn
  have howned : HandlesFree (pins.map f) (s.rename f).owned ↔ HandlesFree pins s.owned := by
    rw [State.owned_rename, handlesFree_map hf]
  by_cases hfree : HandlesFree pins s.owned
  case neg => rw [construct_of_shared hl hn hfree, construct_of_shared hl' hn' (mt howned.mp hfree)]; rfl
  have hfree' := howned.mpr hfree
  have hinvalid : HandlesValid (pins.map f) (s.rename f).invalidHandles ↔ HandlesValid pins s.invalidHandles :=
    handlesValid_map hf
  by_cases hv : HandlesValid pins s.invalidHandles
  case neg => rw [construct_of_invalid hl hfree hv, construct_of_invalid hl' hfree' (mt hinvalid.mp hv)]; rfl
  have hv' := hinvalid.mpr hv
  by_cases hw : FixedListWf straps.fixedCaseFold s.tables.fixedList
  case neg => rw [construct_of_illFormed hl hfree hv hw, construct_of_illFormed hl' hfree' hv' hw]; rfl
  rw [construct_of_fit hl hfree hv hw, construct_of_fit hl' hfree' hv' hw, renameAnswer_next, State.rename_report,
    State.rename_add, newDevice_rename]

/-- A step commutes with an injective renaming, whatever the host's next input. -/
theorem stepAt_rename (s : State H) : stepAt (s.rename f) = renameAnswer f (stepAt s) := by
  have hpending : (s.rename f).pending = s.pending.map (HostInput.rename f) := rfl
  unfold stepAt
  rcases hp : s.pending with _ | ⟨⟨straps, pins⟩ | ⟨k, w⟩ | ⟨k⟩ | _, rest⟩ <;> rw [hp] at hpending
  · rw [stepWith_nil hp, stepWith_nil hpending]; rfl
  · rw [stepWith_construct hp, stepWith_construct hpending, ← construct_rename hf]; rfl
  · cases hw : readCommand w with
    | ok i => rw [stepWith_command hp hw, stepWith_command hpending hw, ← operation_rename]; rfl
    | error r => rw [stepWith_reserved hp hw, stepWith_reserved hpending hw]; rfl
  · rw [stepWith_drop hp, stepWith_drop hpending, ← drop_rename]; rfl
  · rw [stepWith_peripheral hp, stepWith_peripheral hpending]; rfl

theorem Device.padOf_rename (d : Device H) (h : H) : (d.rename f).padOf (f h) = d.padOf h := by
  simp only [Device.padOf, Device.rename_pin, Octet.get_map, hf.eq_iff, Device.rename_level]

theorem State.padOf_rename (s : State H) (h : H) : (s.rename f).padOf (f h) = s.padOf h := by
  simp only [State.padOf, State.liveDevices_rename, List.findSome?_map, Function.comp_def, Device.padOf_rename hf]

end injective

end Sys2Proof.Machine

namespace Sys2Proof

open Sys2Proof.Machine

/-- Settles O53: the machine compares handles and does nothing else with them. -/
theorem handlesAreOpaque : Obligations.HandlesAreOpaque :=
  ⟨exec_eq_operation, step_eq_stepAt, fun _ _ _ _ _ hf s => ⟨stepAt_rename hf s, State.padOf_rename hf s⟩⟩

end Sys2Proof

/-! PROOF. The invariant of the machine: what a Device is well-formed by, and that adding, replacing and dropping a
Device each keep it. -/

namespace Sys2Proof

/-- An octet that holds no value twice lists no value twice. -/
theorem Octet.nodup_toList {α : Type} {o : Octet α} (h : Function.Injective o.get) : o.toList.Nodup :=
  List.Nodup.map (l := Segment.list) h (by decide)

namespace Machine

variable {H : Type}

/-! ### The handles a new Device holds (R113, R114) -/

theorem invPerm_perm (l : Segment) : invPerm (perm l) = l := by cases l <;> rfl

theorem perm_injective : Function.Injective perm := Function.LeftInverse.injective invPerm_perm

theorem remap_get (pins : List H) (hl : pins.length = Config.nseg) (l : Segment) :
    (remap pins hl).get l = pins[(perm l).val]'(hl ▸ (perm l).isLt) :=
  Octet.get_ofFn ..

theorem remap_nodup {pins : List H} (hl : pins.length = Config.nseg) (hn : pins.Nodup) :
    (remap pins hl).toList.Nodup := by
  refine Octet.nodup_toList fun l l' h => perm_injective (Fin.ext ?_)
  simpa only [remap_get, hn.getElem_inj_iff] using h

theorem mem_of_mem_remap {pins : List H} (hl : pins.length = Config.nseg) {h : H}
    (hm : h ∈ (remap pins hl).toList) : h ∈ pins := by
  obtain ⟨l, rfl⟩ := (Octet.mem_toList _ _).mp hm
  rw [remap_get]
  exact List.getElem_mem _

theorem State.mem_owned {s : State H} {h : H} : h ∈ s.owned ↔ ∃ d ∈ s.liveDevices, h ∈ d.pin.toList :=
  List.mem_flatMap

/-! ### A single Device -/

theorem newDevice_wf {tables : Tables} {invalid : List H} {straps : Straps} {pins : List H}
    (hl : pins.length = Config.nseg) (hn : pins.Nodup) (hv : HandlesValid pins invalid)
    (hw : FixedListWf straps.fixedCaseFold tables.fixedList) :
    DeviceWf tables invalid (newDevice straps pins hl) :=
  ⟨.inl ⟨rfl, rfl⟩, remap_nodup hl hn, fun h hm => hv h (mem_of_mem_remap hl hm), hw⟩

theorem drivenLines_written (b : Mask) : ∀ l ∈ (drivenLines b).toList, l ≠ .unwritten := by
  simp [drivenLines, Octet.toList]

/-- An operation leaves all outputs enabled and all eight lines written, or the Device as it was (R36). -/
theorem Device.after_coherent {d : Device H} (h : DeviceCoherent d) (tables : Tables) (i : Instr) :
    DeviceCoherent (d.after tables i) := by
  cases hm : muxOutput tables d.straps i with
  | some b =>
    simp only [Device.after, hm]
    exact .inr ⟨rfl, drivenLines_written b⟩
  | none => rwa [Device.after_of_raise hm]

theorem Device.after_wf {tables : Tables} {invalid : List H} {d : Device H} (h : DeviceWf tables invalid d)
    (i : Instr) : DeviceWf tables invalid (d.after tables i) := by
  obtain ⟨hcoherent, hpins⟩ := h
  refine ⟨Device.after_coherent hcoherent tables i, ?_⟩
  rwa [Device.after_pin, Device.after_straps]

end Machine

/-! ### The machine -/

open Sys2Proof.Machine

namespace MachineInv

variable {H : Type} {s : State H}

/-- The invariant speaks of the tables, the invalid handles and the slots. -/
theorem congr {t : State H} (h : MachineInv s) (htables : t.tables = s.tables)
    (hinvalid : t.invalidHandles = s.invalidHandles) (hslots : t.slots = s.slots) : MachineInv t := by
  rwa [MachineInv, htables, hinvalid, State.liveDevices_congr hslots]

/-- A Device whose handles no live Device owns may be added. -/
theorem add {d : Device H} (h : MachineInv s) (hd : DeviceWf s.tables s.invalidHandles d)
    (hfree : ∀ p ∈ d.pin.toList, p ∉ s.owned) : MachineInv (s.add d) := by
  obtain ⟨hrom, hwf, hpair⟩ := h
  refine ⟨hrom, fun e he => ?_, ?_⟩
  · rw [State.liveDevices_add, List.mem_append, List.mem_singleton] at he
    obtain he | rfl := he
    · exact hwf e he
    · exact hd
  · rw [State.liveDevices_add, List.pairwise_append]
    refine ⟨hpair, List.pairwise_singleton .., fun e he d' hd' p hp hp' => ?_⟩
    obtain rfl := List.mem_singleton.mp hd'
    exact hfree p hp' (State.mem_owned.mpr ⟨e, he, hp⟩)

/-- A Device may be replaced by one with the same handles. -/
theorem put {d d' : Device H} (h : MachineInv s) (hd : s.device? = some d)
    (hd' : DeviceWf s.tables s.invalidHandles d') (hpin : d'.pin = d.pin) : MachineInv (s.put d') := by
  obtain ⟨hrom, hwf, hpair⟩ := h
  refine ⟨hrom, fun e he => ?_, ?_⟩
  · obtain ⟨k, hk⟩ := State.mem_liveDevices.mp he
    rw [State.live?_put hd] at hk
    split at hk
    · cases hk
      exact hd'
    · exact hwf e (State.mem_liveDevices.mpr ⟨k, hk⟩)
  · rw [← List.pairwise_map (f := Device.pin) (R := fun p q => ∀ h ∈ p.toList, h ∉ q.toList)] at hpair ⊢
    rwa [State.map_pin_liveDevices_put hd hpin]

theorem release (h : MachineInv s) (k : Nat) : MachineInv (s.release k) := by
  obtain ⟨hrom, hwf, hpair⟩ := h
  have hsub := s.liveDevices_release_sublist k
  exact ⟨hrom, fun d hd => hwf d (hsub.subset hd), hpair.sublist hsub⟩

theorem construct_next [DecidableEq H] {t : State H} {straps : Straps} {pins : List H} (h : MachineInv s)
    (ht : construct straps pins s = .next t) : MachineInv t := by
  obtain ⟨-, rfl⟩ | ⟨hl, ⟨hn, hfree⟩, hv, hw, rfl⟩ := Machine.construct_next ht
  · exact h.congr rfl rfl rfl
  · have hadd := h.add (newDevice_wf hl hn hv hw) fun p hp => hfree p (mem_of_mem_remap hl hp)
    exact hadd.congr rfl rfl rfl

theorem operation_next {t : State H} {i : Instr} (h : MachineInv s) (ht : operation i s = .next t) :
    MachineInv t := by
  obtain ⟨d, hd, -, rfl⟩ := operation_next_iff.mp ht
  obtain ⟨-, hwf, -⟩ := id h
  have hd' := hwf d (State.mem_liveDevices.mpr ⟨s.target, hd⟩)
  exact (h.put hd (Device.after_wf hd' i) (d.after_pin ..)).congr rfl rfl rfl

theorem drop_next {t : State H} {k : Nat} (h : MachineInv s) (ht : drop k s = .next t) : MachineInv t := by
  obtain ⟨d, -, rfl⟩ := Machine.drop_next ht
  exact (h.release k).congr rfl rfl rfl

end MachineInv

/-- Settles O46: by the host's next input. A construction adds a Device whose handles are free, an operation replaces
a Device by a well-formed one with the same handles, a drop takes one away, and nothing else touches the Devices. -/
theorem stepKeepsInvariant : Obligations.StepKeepsInvariant := by
  intro s t h ht
  have hconsume (rest) : MachineInv (s.consume rest) := h.congr rfl rfl rfl
  have hissue (k rest) : MachineInv (s.issue k rest) := h.congr rfl rfl rfl
  obtain ⟨-, rfl⟩ | ⟨straps, pins, rest, -, ht⟩ | ⟨k, w, rest, i, -, -, ht⟩ | ⟨k, rest, -, ht⟩ | ⟨rest, -, rfl⟩ :=
    step_next ht
  · exact h.congr rfl rfl rfl
  · exact (hconsume rest).construct_next ht
  · exact (hissue k rest).operation_next ((exec_eq_operation i _).symm.trans ht)
  · exact (hconsume rest).drop_next ht
  · exact h.congr rfl rfl rfl

end Sys2Proof

/-! PROOF. The command word: the decoder by the rows of R57, the step of a command word by what it decodes to, and the
composition of a pattern with the dot. -/

namespace Sys2Proof

open Sys2Proof.Machine

/-! ### The decoder, by the rows of R57 -/

section rows
variable {w : CommandWord}

theorem decode_of_op_configure (h : opField w = 0) : decode w = .ok .configure := by
  simp [decode, h]

theorem decode_of_op_clear (h : opField w = 1) : decode w = .ok .clear := by
  simp [decode, h]

theorem decode_of_op_render (h : opField w = 2) : decode w = .ok (.render (argField w)) := by
  simp [decode, h]

theorem decode_of_op_display (h : opField w = 3) : decode w = .ok (.display (argField w) (dotField w)) := by
  simp [decode, h]

theorem decode_of_op_displayHex (h : opField w = 4) :
    decode w = .ok (.displayHex (argField w) (dotField w)) := by
  simp [decode, h]

theorem decode_of_op_displayJustDot (h : opField w = 5) : decode w = .ok .displayJustDot := by
  simp [decode, h]

theorem decode_of_op_reserved (h : opField w = 6 ∨ opField w = 7) : decode w = .error (.reservedOp (opField w)) := by
  obtain h | h := h
  · simp [decode, h]
  · simp [decode, h]

end rows

theorem op_cases : ∀ op : BitVec 3,
    op = 0 ∨ op = 1 ∨ op = 2 ∨ op = 3 ∨ op = 4 ∨ op = 5 ∨ (op = 6 ∨ op = 7) := by decide

/-- A word decodes to an operation exactly when its op is not a reserved one (R59). -/
theorem decode_ok_iff (w : CommandWord) : (∃ i, decode w = .ok i) ↔ opField w ≠ 6 ∧ opField w ≠ 7 := by
  constructor
  · rintro ⟨i, hi⟩
    exact not_or.mp fun hop => by cases (decode_of_op_reserved hop).symm.trans hi
  · rintro ⟨h6, h7⟩
    obtain h | h | h | h | h | h | h | h := op_cases (opField w)
    · exact ⟨_, decode_of_op_configure h⟩
    · exact ⟨_, decode_of_op_clear h⟩
    · exact ⟨_, decode_of_op_render h⟩
    · exact ⟨_, decode_of_op_display h⟩
    · exact ⟨_, decode_of_op_displayHex h⟩
    · exact ⟨_, decode_of_op_displayJustDot h⟩
    · exact absurd h h6
    · exact absurd h h7

/-- The rows of CONFIGURE, CLEAR and DISPLAY_JUST_DOT read `op` alone (R60). -/
theorem decode_eq_of_op {w w' : CommandWord} (hop : opField w = opField w')
    (h : opField w = 0 ∨ opField w = 1 ∨ opField w = 5) : decode w = decode w' := by
  obtain h | h | h := h
  · rw [decode_of_op_configure h, decode_of_op_configure (hop ▸ h)]
  · rw [decode_of_op_clear h, decode_of_op_clear (hop ▸ h)]
  · rw [decode_of_op_displayJustDot h, decode_of_op_displayJustDot (hop ▸ h)]

/-- The row of RENDER reads `op` and `arg` (R60). -/
theorem decode_eq_of_op_render {w w' : CommandWord} (h : opField w = 2) (h' : opField w' = 2)
    (harg : argField w = argField w') : decode w = decode w' := by
  rw [decode_of_op_render h, decode_of_op_render h', harg]

/-! ### The bits of a command word -/

theorem argField_getLsbD (w : CommandWord) {n : Nat} (h : n < 8) : (argField w).getLsbD n = w.getLsbD n := by
  simp [argField, h]

/-- Masking a command word masks each of its fields. -/
theorem and_commandWord (w : CommandWord) (op : BitVec 3) (dot : Bool) (arg : BitVec 8) :
    w &&& commandWord op dot arg = commandWord (opField w &&& op) (dotField w && dot) (argField w &&& arg) := by
  have inner : (BitVec.ofBool (dotField w) ++ argField w) &&& (BitVec.ofBool dot ++ arg) =
      BitVec.ofBool (dotField w && dot) ++ (argField w &&& arg) := by
    rw [BitVec.and_append, BitVec.ofBool_and_ofBool]
  calc w &&& commandWord op dot arg
      = commandWord (opField w) (dotField w) (argField w) &&& commandWord op dot arg := by rw [commandWord_fields]
    _ = (opField w &&& op) ++ ((BitVec.ofBool (dotField w) ++ argField w) &&& (BitVec.ofBool dot ++ arg)) :=
      BitVec.and_append
    _ = commandWord (opField w &&& op) (dotField w && dot) (argField w &&& arg) := by rw [inner]; rfl

/-! What the three masks of R57's table keep. -/

theorem and_opBits (w : CommandWord) : w &&& 0xE00 = commandWord (opField w) false 0 :=
  (and_commandWord w (BitVec.allOnes 3) false 0).trans <| by
    rw [BitVec.and_allOnes, Bool.and_false]
    exact congrArg _ BitVec.and_zero

theorem and_opArgBits (w : CommandWord) : w &&& 0xEFF = commandWord (opField w) false (argField w) :=
  (and_commandWord w (BitVec.allOnes 3) false (BitVec.allOnes 8)).trans <| by
    rw [BitVec.and_allOnes, Bool.and_false, BitVec.and_allOnes]

theorem and_allBits (w : CommandWord) : w &&& 0xFFF = commandWord (opField w) (dotField w) (argField w) :=
  BitVec.and_allOnes.trans (commandWord_fields w).symm

/-- Settles O1: the word of each operation holds the op of its row and, in the fields its row reads, its operands. -/
theorem decodeOfEncodeIsIdentity : Obligations.DecodeOfEncodeIsIdentity := by
  intro i
  cases i with
  | configure => exact decode_of_op_configure (opField_commandWord ..)
  | clear => exact decode_of_op_clear (opField_commandWord ..)
  | render b => rw [encode, decode_of_op_render (opField_commandWord ..), argField_commandWord]
  | display c dot =>
    rw [encode, decode_of_op_display (opField_commandWord ..), argField_commandWord, dotField_commandWord]
  | displayHex v dot =>
    rw [encode, decode_of_op_displayHex (opField_commandWord ..), argField_commandWord, dotField_commandWord]
  | displayJustDot => exact decode_of_op_displayJustDot (opField_commandWord ..)

/-- Settles O2, by the row of R57 the word is in: the mask keeps `op` and the fields the row reads, and clears the
others. -/
theorem decodedWordIsCanonicalOnUsedBits : Obligations.DecodedWordIsCanonicalOnUsedBits := by
  intro w i hi
  obtain h | h | h | h | h | h | h := op_cases (opField w)
  · cases (decode_of_op_configure h).symm.trans hi
    rw [encode, usedBits, and_opBits, h]
  · cases (decode_of_op_clear h).symm.trans hi
    rw [encode, usedBits, and_opBits, h]
  · cases (decode_of_op_render h).symm.trans hi
    rw [encode, usedBits, and_opArgBits, h]
  · cases (decode_of_op_display h).symm.trans hi
    rw [encode, usedBits, and_allBits, h]
  · cases (decode_of_op_displayHex h).symm.trans hi
    rw [encode, usedBits, and_allBits, h]
  · cases (decode_of_op_displayJustDot h).symm.trans hi
    rw [encode, usedBits, and_opBits, h]
  · cases (decode_of_op_reserved h).symm.trans hi

/-! ### The step of a command word -/

/-- A step reads nothing of a command word but what it decodes to. -/
theorem step_command_congr {w w' : CommandWord} (h : decode w = decode w') (s : State) (k : Nat)
    (rest : List HostInput) :
    step { s with pending := .command k w :: rest } = step { s with pending := .command k w' :: rest } := by
  have hread : readCommand w = readCommand w' := by simp only [readCommand, h]
  simp only [step, stepWith, hread]
  rfl

/-- A command word issued to a configured Device leaves it as the operation does. -/
theorem step_command_of_configured {s : State} {d : Device} {k : Nat} {w : CommandWord} {i : Instr}
    (hw : decode w = .ok i) (hd : s.live? k = some d) (hc : d.configured = true) (rest : List HostInput) :
    ∃ t, step { s with pending := .command k w :: rest } = .next t ∧ t.live? k = some (d.after s.tables i) := by
  have hdev : ({ s with target := k, pending := rest } : State).device? = some d := hd
  have hready : d.ready i = true := by simp [Device.ready, hc]
  have hstep := stepRunsIssuedCommand { s with pending := .command k w :: rest } k w rest i rfl hw
  rw [exec_eq_operation, operation_of_ready hdev hready] at hstep
  exact ⟨_, hstep, State.device?_put hdev _⟩

theorem readCommand_of_reserved {w : CommandWord} (h : opField w = 6 ∨ opField w = 7) :
    readCommand w = .error (.reservedOperation (opField w)) := by
  simp [readCommand, decode_of_op_reserved h]

/-- A RENDER word drives DP from bit 7 of its `arg`, which is bit 7 of the word. -/
theorem Machine.Device.after_render_dp (d : Device) (tables : Tables) (w : CommandWord) :
    (d.after tables (.render (argField w))).line.dp = .driven (bitLevel (w.getLsbD 7)) := by
  rw [← argField_getLsbD w (by decide)]
  rfl

/-- Settles O3: the rows that read `op` alone and the row of RENDER decode alike, a step reads only what the word
decodes to, and whether a word is an operation is said by its op. -/
theorem ignoredFieldsMakeNoDifference : Obligations.IgnoredFieldsMakeNoDifference := by
  refine ⟨fun w w' hop hmem => ?_, fun w w' h h' harg => ?_, fun w s d k rest hop hd hc => ?_, fun w w' hop => ?_⟩
  · have hdec : decode w = decode w' := decode_eq_of_op hop (by simpa using hmem)
    exact ⟨hdec, step_command_congr hdec⟩
  · have hdec : decode w = decode w' := decode_eq_of_op_render h h' harg
    exact ⟨hdec, step_command_congr hdec⟩
  · obtain ⟨t, ht, hlive⟩ := step_command_of_configured (decode_of_op_render hop) hd hc rest
    exact ⟨t, _, ht, hlive, Device.after_render_dp d s.tables w⟩
  · rw [decode_ok_iff, decode_ok_iff, hop]

/-- Settles O4: a word of neither reserved op is in one of the six rows of R57, and reading a reserved one is the
refusal that names its op. -/
theorem reservedOpsAreRefused : Obligations.ReservedOpsAreRefused :=
  ⟨decode_ok_iff, fun _ _ _ _ hp hop => stepWith_reserved hp (readCommand_of_reserved hop)⟩

/-- Settles O5: the fourteen words are closed, and the decoder computes on them. -/
theorem specWordsDecode : Obligations.SpecWordsDecode := by
  unfold Obligations.SpecWordsDecode
  decide

/-! ### Composition with the dot (R52) -/

/-- Two compositions differ where their patterns or their dots do. -/
theorem compose_xor_compose (p p' : Pattern) (dp dp' : Bool) :
    compose p dp ^^^ compose p' dp' = compose (p ^^^ p') (dp ^^ dp') := by
  calc compose p dp ^^^ compose p' dp'
      = (BitVec.ofBool dp ^^^ BitVec.ofBool dp') ++ (p ^^^ p') := BitVec.xor_append
    _ = compose (p ^^^ p') (dp ^^ dp') := by rw [BitVec.ofBool_xor_ofBool]; rfl

/-- Settles O17: the two forms are `compose_eq_or`, and with equal patterns only the dots differ. -/
theorem composePlacesDotInBitSeven : Obligations.ComposePlacesDotInBitSeven := by
  refine fun pattern => ⟨compose_eq_or pattern, ?_⟩
  rw [compose_xor_compose, BitVec.xor_self]
  rfl

end Sys2Proof

/-! PROOF. The glyph ROM: which addresses hold one pattern, and that a picture depends on the pattern alone. -/

namespace Sys2Proof.Machine

variable {H : Type}

/-! ### Operations that leave the same machine -/

/-- Two operations that are ready alike, select the same lines and report alike leave the same machine. -/
theorem operation_congr {i i' : Instr} {s : State H} {d : Device H} (h : s.device? = some d)
    (hready : d.ready i = d.ready i') (hmux : muxOutput s.tables d.straps i = muxOutput s.tables d.straps i')
    (hresult : resultAfterWrite d.straps i = resultAfterWrite d.straps i') : operation i s = operation i' s := by
  cases hr : d.ready i with
  | false => rw [operation_of_unready h hr, operation_of_unready h (hready ▸ hr)]
  | true =>
    have hafter : d.after s.tables i = d.after s.tables i' := by simp only [Device.after, hmux]
    have hreport : reportOf s.tables d.straps i = reportOf s.tables d.straps i' := by
      simp only [reportOf, hmux, hresult]
    rw [operation_of_ready h hr, operation_of_ready h (hready ▸ hr), hafter, hreport]

section mux
variable {tables : Tables} {straps : Straps} {addr : GlyphAddr} {forceDp : Bool}

theorem muxOutput_display_of_resolved {c : CharCode} (h : resolveChar tables straps c = .resolved addr forceDp)
    (dot : Bool) :
    muxOutput tables straps (.display c dot) = some (dottedMask tables.glyphRom addr (dot || forceDp)) := by
  simp only [muxOutput, h]

theorem muxOutput_displayHex_of_resolved {v : HexValue} (h : resolveHex v = .resolved addr forceDp) (dot : Bool) :
    muxOutput tables straps (.displayHex v dot) = some (dottedMask tables.glyphRom addr (dot || forceDp)) := by
  simp only [muxOutput, h]

theorem resolveChar_of_range (h : straps.policy = .range) (c : CharCode) :
    resolveChar tables straps c = resolveRange c := by
  simp only [resolveChar, h]

theorem displayStatus_of_range_ok (h : straps.policy = .range) (hp : straps.rangeStatusParity = false) :
    displayStatus straps = .ok := by
  simp only [displayStatus, h, hp]

end mux

/-- Under the range policy two characters whose addresses hold one pattern leave the same machine, where the decoder
forces DP for both or for neither. -/
theorem operation_display_of_samePattern {s : State H} {d : Device H} (hd : s.device? = some d)
    (hp : d.straps.policy = .range) {c c' : CharCode} {addr addr' : GlyphAddr} {forceDp : Bool}
    (hc : resolveRange c = .resolved addr forceDp) (hc' : resolveRange c' = .resolved addr' forceDp)
    (hrom : s.tables.glyphRom[addr.val] = s.tables.glyphRom[addr'.val]) (dot : Bool) :
    operation (.display c dot) s = operation (.display c' dot) s := by
  refine operation_congr hd rfl ?_ rfl
  rw [muxOutput_display_of_resolved ((resolveChar_of_range hp c).trans hc),
    muxOutput_display_of_resolved ((resolveChar_of_range hp c').trans hc'), dottedMask, dottedMask, hrom]

/-! ### The default ROM -/

/-- The patterns the default ROM holds more than once, each with the addresses that hold it (R83). -/
def sharedGlyphs : List (Pattern × List Nat) :=
  [(0x37, [17, 20, 33]), (0x3E, [30, 31]), (0x6D, [2, 35]), (0x5B, [5, 28]), (0x00, [22, 32, 36, 38])]

theorem mem_sharedGlyphs_iff : ∀ q ∈ sharedGlyphs, ∀ a : GlyphAddr, a.val ∈ q.2 ↔ defaultRom[a.val] = q.1 := by
  decide

/-- A pattern of the default ROM is a shared one, or the first address that holds it is the only one. -/
theorem defaultRom_shared_or_first : ∀ a : GlyphAddr,
    (∃ q ∈ sharedGlyphs, defaultRom[a.val] = q.1) ∨ defaultRom.toList.idxOf defaultRom[a.val] = a.val := by
  decide

theorem defaultRom_eq_iff {a b : GlyphAddr} (hne : a ≠ b) :
    defaultRom[a.val] = defaultRom[b.val] ↔ ∃ q ∈ sharedGlyphs, a.val ∈ q.2 ∧ b.val ∈ q.2 := by
  constructor
  · intro hab
    have hshared : ∃ q ∈ sharedGlyphs, defaultRom[a.val] = q.1 := by
      by_contra hnot
      have ha := (defaultRom_shared_or_first a).resolve_left hnot
      have hb := (defaultRom_shared_or_first b).resolve_left (hab ▸ hnot)
      exact hne (Fin.ext (ha.symm.trans (hab ▸ hb)))
    obtain ⟨q, hq, ha⟩ := hshared
    exact ⟨q, hq, (mem_sharedGlyphs_iff q hq a).mpr ha, (mem_sharedGlyphs_iff q hq b).mpr (hab ▸ ha)⟩
  · rintro ⟨q, hq, ha, hb⟩
    exact ((mem_sharedGlyphs_iff q hq a).mp ha).trans ((mem_sharedGlyphs_iff q hq b).mp hb).symm

end Sys2Proof.Machine

namespace Sys2Proof

open Sys2Proof.Machine

/-- Settles O18: both resolvers answer address 10, so the multiplexer selects the same lines, and without the parity
strap DISPLAY reports OK as DISPLAY_HEX does. -/
theorem hexTenShowsLetterA : Obligations.HexTenShowsLetterA := by
  have hhex : resolveHex 10 = .resolved 10 false := rfl
  have hchar : resolveRange 0x41 = .resolved 10 false := rfl
  refine ⟨hhex.trans hchar.symm, hchar, fun s d dot hd hp hs => ?_⟩
  rw [exec_eq_operation, exec_eq_operation]
  refine operation_congr hd rfl ?_ (displayStatus_of_range_ok hp hs).symm
  rw [muxOutput_displayHex_of_resolved hhex,
    muxOutput_display_of_resolved ((resolveChar_of_range hp 0x41).trans hchar)]

/-- Settles O19: the two addresses of each pair hold one pattern in every admissible ROM (R74 to R78). -/
theorem sharedGlyphsLeaveSamePicture : Obligations.SharedGlyphsLeaveSamePicture := by
  intro s d dot hd hp ⟨_, _, hUV, hHK, hHX, h2Z, hM, hW, hblank, _⟩
  simp only [exec_eq_operation]
  have same {c c' : CharCode} {addr addr' : GlyphAddr} (hc : resolveRange c = .resolved addr false)
      (hc' : resolveRange c' = .resolved addr' false)
      (hrom : s.tables.glyphRom[addr.val] = s.tables.glyphRom[addr'.val]) :
      operation (.display c dot) s = operation (.display c' dot) s :=
    operation_display_of_samePattern hd hp hc hc' hrom dot
  exact ⟨same (addr := 31) (addr' := 30) rfl rfl hUV, same (addr := 20) (addr' := 17) rfl rfl hHK,
    same (addr := 33) (addr' := 17) rfl rfl hHX, same (addr := 35) (addr' := 2) rfl rfl h2Z,
    same (addr := 22) (addr' := 36) rfl rfl (hM.trans hblank.symm),
    same (addr := 32) (addr' := 36) rfl rfl (hW.trans hblank.symm)⟩

/-- Settles O15: the machine is reset with the default ROM. -/
theorem defaultRomAdmissible : Obligations.DefaultRomAdmissible := State.reset_romAdmissible

/-- Settles O16: the groups of the statement are those of `sharedGlyphs`. -/
theorem defaultRomSharedPatterns : Obligations.DefaultRomSharedPatterns := by
  refine ⟨fun a b hne => (defaultRom_eq_iff hne).trans ?_, rfl, rfl, rfl, rfl, rfl⟩
  simp [sharedGlyphs]

end Sys2Proof

/-! PROOF. Symbol resolution: the range decoder by its classes, the list search by the matching entry, what the dot
glyph has to itself, and what the parity strap changes. -/

namespace Sys2Proof.Machine

variable {H : Type}

/-! ### The range decoder, by the classes of R91 -/

section range
variable {c : CharCode} {n : Nat}

theorem resolveRange_of_digit (hc : c.toNat = 0x30 + n) (hn : n < 10) :
    resolveRange c = .resolved ⟨n, by omega⟩ false := by
  obtain rfl : n = c.toNat - 0x30 := by omega
  rw [resolveRange, dif_pos (by omega)]

theorem resolveRange_of_upper (hc : c.toNat = 0x41 + n) (hn : n < 26) :
    resolveRange c = .resolved ⟨10 + n, by omega⟩ false := by
  obtain rfl : n = c.toNat - 0x41 := by omega
  rw [resolveRange, dif_neg (by omega), dif_pos (by omega)]

theorem resolveRange_of_lower (hc : c.toNat = 0x61 + n) (hn : n < 26) :
    resolveRange c = .resolved ⟨10 + n, by omega⟩ false := by
  obtain rfl : n = c.toNat - 0x61 := by omega
  rw [resolveRange, dif_neg (by omega), dif_neg (by omega), dif_pos (by omega)]

end range

theorem toNat_ofNat_of_lt_256 {n : Nat} (h : n < 256) : (BitVec.ofNat 8 n).toNat = n := by
  rw [BitVec.toNat_ofNat, Nat.mod_eq_of_lt h]

/-- Ten digits, 26 letters in two cases and five specials. -/
theorem resolveRange_supported_count :
    ((List.range 256).filter fun n => decide (resolveRange (BitVec.ofNat 8 n) ≠ .unsupported)).length = 67 := by
  decide

/-! ### The list search (R96) -/

section fixed
variable {fold : Bool} {list : List CharCode} {c : CharCode}

/-- The search reads nothing of a character but its key. -/
theorem resolveFixed_congr {c' : CharCode} (h : searchKey fold c = searchKey fold c') (list : List CharCode) :
    resolveFixed fold list c = resolveFixed fold list c' := by
  induction list with
  | nil => rfl
  | cons e rest ih => rw [resolveFixed, resolveFixed, h, ih]

/-- No two entries of a well-formed list have one key. -/
theorem eq_of_searchKey_eq (hw : FixedListWf fold list) {e e' : CharCode} (he : e ∈ list) (he' : e' ∈ list)
    (hk : searchKey fold e = searchKey fold e') : e = e' :=
  List.inj_on_of_nodup_map hw.1 he he' hk

theorem resolveFixed_of_match (hw : FixedListWf fold list) {e : CharCode} (he : e ∈ list)
    (hk : searchKey fold e = searchKey fold c) : resolveFixed fold list c = resolveRange e := by
  rcases resolveFixed_cases fold list c with ⟨-, hnone⟩ | ⟨e', he', hk', hr⟩
  · exact absurd hk (hnone e he)
  · rw [hr, eq_of_searchKey_eq hw he' he (hk'.trans hk.symm)]

theorem resolveFixed_of_no_match (h : ∀ e ∈ list, searchKey fold e ≠ searchKey fold c) :
    resolveFixed fold list c = .unsupported := by
  rcases resolveFixed_cases fold list c with ⟨hr, -⟩ | ⟨e, he, hk, -⟩
  · exact hr
  · exact absurd hk (h e he)

theorem resolveFixed_eq_unsupported_iff (hw : FixedListWf fold list) :
    resolveFixed fold list c = .unsupported ↔ ∀ e ∈ list, searchKey fold e ≠ searchKey fold c := by
  refine ⟨fun hr e he hk => hw.2 e he ?_, resolveFixed_of_no_match⟩
  rw [← resolveFixed_of_match hw he hk, hr]

theorem fixedListWf_perm {list' : List CharCode} (hw : FixedListWf fold list) (hp : list.Perm list') :
    FixedListWf fold list' :=
  ⟨(hp.map _).nodup hw.1, fun e he => hw.2 e (hp.mem_iff.mpr he)⟩

theorem resolveFixed_perm {list' : List CharCode} (hw : FixedListWf fold list) (hp : list.Perm list') :
    resolveFixed fold list c = resolveFixed fold list' c := by
  rcases resolveFixed_cases fold list c with ⟨hr, hnone⟩ | ⟨e, he, hk, hr⟩
  · rw [hr, resolveFixed_of_no_match fun e he => hnone e (hp.mem_iff.mpr he)]
  · rw [hr, resolveFixed_of_match (fixedListWf_perm hw hp) (hp.mem_iff.mp he) hk]

/-- Without folding a code's key is the code, so the codes of the list are the supported ones (R97). -/
theorem resolveFixed_exact_supported_iff (hw : FixedListWf false list) :
    resolveFixed false list c ≠ .unsupported ↔ c ∈ list := by
  rw [Ne, resolveFixed_eq_unsupported_iff hw]
  simp [searchKey]

end fixed

theorem searchKey_letter : ∀ n : Fin 26,
    searchKey true (BitVec.ofNat 8 (0x61 + n.val)) = searchKey true (BitVec.ofNat 8 (0x41 + n.val)) := by
  decide

/-- Folding makes upper-case letters only, so no other code shares a key with the dot. -/
theorem eq_dot_of_searchKey {fold : Bool} {e : CharCode} (h : searchKey fold e = searchKey fold 0x2E) :
    e = 0x2E := by
  revert fold e; decide

/-! ### The default list (R98) -/

theorem defaultFixedList_wf : ∀ fold : Bool, FixedListWf fold defaultFixedList := by decide

theorem resolveFixed_default_of_mem {fold : Bool} {e : CharCode} (he : e ∈ defaultFixedList) :
    resolveFixed fold defaultFixedList e = resolveRange e :=
  resolveFixed_of_match (defaultFixedList_wf fold) he rfl

/-- Positions 0 to 18 of R98: each entry with what the range decoder answers for it. -/
theorem defaultFixedList_digits_and_letters : ∀ i : Fin 19, defaultFixedList[i.val]! ∈ defaultFixedList ∧
    resolveRange defaultFixedList[i.val]! = .resolved ⟨i.val, by omega⟩ false := by
  decide

/-- The 20 codes of the list and, with folding, the lower case of its nine letters. -/
theorem resolveFixed_default_supported_count :
    ((List.range 256).filter fun n =>
      decide (resolveFixed true defaultFixedList (BitVec.ofNat 8 n) ≠ .unsupported)).length = 29 ∧
    ((List.range 256).filter fun n =>
      decide (resolveFixed false defaultFixedList (BitVec.ofNat 8 n) ≠ .unsupported)).length = 20 := by
  decide

/-! ### The dot glyph (R100) -/

/-- Whether an answer forces DP exactly where it is the dot glyph. -/
def Resolution.ForcesDotOnly (r : Resolution) : Prop :=
  ∀ addr forceDp, r = .resolved addr forceDp → (forceDp = true ↔ addr = 38)

theorem Resolution.forcesDotOnly_unsupported : Resolution.unsupported.ForcesDotOnly := nofun

theorem Resolution.forcesDotOnly_of_ne {addr : GlyphAddr} (h : addr.val ≠ 38) :
    (Resolution.resolved addr false).ForcesDotOnly := by
  rintro _ _ ⟨⟩
  simpa using fun he => h (congrArg Fin.val he)

theorem resolveRange_forcesDotOnly (c : CharCode) : (resolveRange c).ForcesDotOnly := by
  unfold resolveRange
  split_ifs with hdigit hupper hlower
  · exact Resolution.forcesDotOnly_of_ne (by dsimp only; omega)
  · exact Resolution.forcesDotOnly_of_ne (by dsimp only; omega)
  · exact Resolution.forcesDotOnly_of_ne (by dsimp only; omega)
  · exact Resolution.forcesDotOnly_of_ne (by decide)
  · exact Resolution.forcesDotOnly_of_ne (by decide)
  · rintro _ _ ⟨⟩; decide
  · exact Resolution.forcesDotOnly_of_ne (by decide)
  · exact Resolution.forcesDotOnly_of_ne (by decide)
  · exact Resolution.forcesDotOnly_unsupported

theorem resolveHex_forcesDotOnly (v : HexValue) : (resolveHex v).ForcesDotOnly := by
  rcases resolveHex_cases v with ⟨_, hv, hr⟩ | ⟨-, hr⟩
  · rw [hr]; exact Resolution.forcesDotOnly_of_ne (by dsimp only; omega)
  · rw [hr]; exact Resolution.forcesDotOnly_unsupported

/-- Whatever the policy, a character is unsupported or answered by the range decoder for a code with its key. -/
theorem resolveChar_cases (tables : Tables) (straps : Straps) (c : CharCode) :
    resolveChar tables straps c = .unsupported ∨
      ∃ e, searchKey straps.fixedCaseFold e = searchKey straps.fixedCaseFold c ∧
        resolveChar tables straps c = resolveRange e := by
  cases hp : straps.policy with
  | range => exact .inr ⟨c, rfl, resolveChar_of_range hp c⟩
  | fixed =>
    have hfixed : resolveChar tables straps c = resolveFixed straps.fixedCaseFold tables.fixedList c := by
      simp only [resolveChar, hp]
    rw [hfixed]
    rcases resolveFixed_cases straps.fixedCaseFold tables.fixedList c with ⟨hr, -⟩ | ⟨e, -, hk, hr⟩
    · exact .inl hr
    · exact .inr ⟨e, hk, hr⟩

theorem resolveChar_forcesDotOnly (tables : Tables) (straps : Straps) (c : CharCode) :
    (resolveChar tables straps c).ForcesDotOnly := by
  rcases resolveChar_cases tables straps c with hr | ⟨e, -, hr⟩
  · rw [hr]; exact Resolution.forcesDotOnly_unsupported
  · rw [hr]; exact resolveRange_forcesDotOnly e

/-- Where a policy supports '.', it answers the dot glyph. -/
theorem resolveChar_dot {tables : Tables} {straps : Straps} (h : resolveChar tables straps 0x2E ≠ .unsupported) :
    resolveChar tables straps 0x2E = .resolved 38 true := by
  obtain ⟨e, hk, hr⟩ := (resolveChar_cases tables straps 0x2E).resolve_left h
  rw [hr, eq_dot_of_searchKey hk]
  rfl

/-- DISPLAY of a resolved character on a configured Device (R118). -/
theorem operation_display_of_resolved {s : State H} {d : Device H} (hd : s.device? = some d)
    (hc : d.configured = true) {c : CharCode} {addr : GlyphAddr} {forceDp : Bool}
    (hr : resolveChar s.tables d.straps c = .resolved addr forceDp) (dot : Bool) :
    operation (.display c dot) s =
      .next ((s.put { d with line := drivenLines (dottedMask s.tables.glyphRom addr (dot || forceDp)) }).report
        (displayStatus d.straps)) := by
  rw [operation_of_configured _ hd hc, muxOutput_display_of_resolved hr]
  rfl

theorem State.device?_report_put {s : State H} {d : Device H} (hd : s.device? = some d) (d' : Device H) (r : Result) :
    ((s.put d').report r).device? = some d' :=
  State.device?_put hd d'

theorem dottedMask_dp (rom : GlyphRom) (addr : GlyphAddr) (dp : Bool) :
    (dottedMask rom addr dp).getLsbD 7 = dp := by
  cases dp <;> simp [dottedMask]

theorem dottedMask_of_dark {rom : GlyphRom} {addr : GlyphAddr} (h : rom[addr.val] = 0) (dp : Bool) :
    dottedMask rom addr dp = if dp then 0x80 else 0x00 := by
  rw [dottedMask, h]
  cases dp <;> rfl

/-! ### The parity strap (R95) -/

/-- The straps with `RANGE_STATUS_PARITY` set. -/
def parityStraps (straps : Straps) : Straps := { straps with rangeStatusParity := true }

/-- The Device with `RANGE_STATUS_PARITY` set. -/
def Device.withParity (d : Device H) : Device H := { d with straps := parityStraps d.straps }

/-- The multiplexer does not read the strap. -/
theorem muxOutput_parityStraps (tables : Tables) (straps : Straps) (i : Instr) :
    muxOutput tables (parityStraps straps) i = muxOutput tables straps i := by
  cases i <;> rfl

theorem Device.after_withParity (tables : Tables) (i : Instr) (d : Device H) :
    d.withParity.after tables i = { d.after tables i with straps := parityStraps d.straps } := by
  have hm : muxOutput tables d.withParity.straps i = muxOutput tables d.straps i := muxOutput_parityStraps ..
  unfold Device.after
  rw [hm]
  split <;> rfl

theorem reportOf_parityStraps_display {straps : Straps} (hp : straps.policy = .range) (tables : Tables) (c : CharCode)
    (dot : Bool) : reportOf tables (parityStraps straps) (.display c dot) = .unsupported := by
  unfold reportOf
  split
  · simp [resultAfterWrite, displayStatus, parityStraps, hp]
  · rfl

theorem resultAfterWrite_parityStraps {straps : Straps} {i : Instr}
    (h : ¬ ((∃ c dot, i = .display c dot) ∧ straps.policy = .range)) :
    resultAfterWrite (parityStraps straps) i = resultAfterWrite straps i := by
  cases i with
  | display c dot =>
    have hp : straps.policy = .fixed := by
      cases hp : straps.policy with
      | range => exact absurd ⟨⟨c, dot, rfl⟩, hp⟩ h
      | fixed => rfl
    simp [resultAfterWrite, displayStatus, parityStraps, hp]
  | _ => rfl

theorem reportOf_parityStraps {straps : Straps} {i : Instr}
    (h : ¬ ((∃ c dot, i = .display c dot) ∧ straps.policy = .range)) (tables : Tables) :
    reportOf tables (parityStraps straps) i = reportOf tables straps i := by
  simp only [reportOf, muxOutput_parityStraps, resultAfterWrite_parityStraps h]

end Sys2Proof.Machine

namespace Sys2Proof

open Sys2Proof.Machine

/-- Settles O9: the search ends at an entry with the key or finds none; in a well-formed list there is at most one such
entry, and the range decoder does not reject it. -/
theorem fixedSearchAnswersMatchingEntry : Obligations.FixedSearchAnswersMatchingEntry :=
  fun _ _ _ hw => ⟨fun _ => resolveFixed_of_match hw, resolveFixed_eq_unsupported_iff hw⟩

/-- Settles O10: a permutation is well-formed too and has the same matching entry, of which there is at most one. -/
theorem fixedSearchIsOrderFree : Obligations.FixedSearchIsOrderFree :=
  fun _ _ _ _ hw hp =>
    ⟨resolveFixed_perm hw hp, fun _ he _ he' hk hk' => eq_of_searchKey_eq hw he he' (hk.trans hk'.symm)⟩

/-- Settles O11: with folding the two cases have one key, without it every key is the code itself. -/
theorem fixedCaseFoldStrap : Obligations.FixedCaseFoldStrap :=
  ⟨fun list n => resolveFixed_congr (searchKey_letter n) list, fun _ _ => resolveFixed_exact_supported_iff⟩

/-- Settles O14: the range decoder forces DP for address 38 alone, the other resolvers answer as it does or without
forcing, and DP is the top bit of the mask driven, which is all of it where the pattern is dark. -/
theorem forceDpOnlyForDotGlyph : Obligations.ForceDpOnlyForDotGlyph := by
  refine ⟨resolveChar_forcesDotOnly, resolveHex_forcesDotOnly, fun s d c dot addr fdp hd hc hr => ?_,
    fun s d dot hd hc ⟨_, _, _, _, _, _, _, _, _, hdark⟩ hsupported => ?_⟩
  · refine ⟨_, _, (exec_eq_operation ..).trans (operation_display_of_resolved hd hc hr dot),
      State.device?_report_put hd _ _, ?_⟩
    simp only [drivenLines, dottedMask_dp]
  · have hshow := operation_display_of_resolved hd hc (resolveChar_dot hsupported) dot
    rw [dottedMask_of_dark hdark, Bool.or_true, if_pos rfl] at hshow
    exact ⟨_, (exec_eq_operation ..).trans hshow, State.device?_report_put hd _ _⟩

/-- Settles O37: the strap is read by the result of DISPLAY under the range policy alone. -/
theorem parityStrapChangesOnlyResult : Obligations.ParityStrapChangesOnlyResult := by
  intro i s t d hd _ ht
  rw [exec_eq_operation] at ht
  obtain ⟨e, he, hready, rfl⟩ := operation_next_iff.mp ht
  obtain rfl : d = e := Option.some.inj (hd.symm.trans he)
  have hd' := State.device?_put hd d.withParity
  have ht' := operation_of_ready (i := i) hd' hready
  refine ⟨_, d.after s.tables i, (exec_eq_operation ..).trans ht', State.device?_report_put hd _ _, ?_, ?_⟩
  · rw [State.put_tables, Device.after_withParity, State.device?_report_put hd']
    rfl
  · rw [State.report_result, State.report_result]
    split_ifs with h
    · obtain ⟨⟨c, dot, rfl⟩, hp⟩ := h
      exact congrArg some (reportOf_parityStraps_display hp ..)
    · exact congrArg some (reportOf_parityStraps h _)

/-- Settles O8: the five codes are in none of the ranges, and the decoder compares them in order. -/
theorem specialsResolveInPairing : Obligations.SpecialsResolveInPairing := rfl

/-- Settles O7: each range of codes by its lemma, the specials as in `specialsResolveInPairing`. -/
theorem rangeDecoderMap : Obligations.RangeDecoderMap := by
  refine ⟨fun n => ?_, fun n => ⟨?_, ?_⟩, ?_, resolveRange_supported_count⟩
  · exact resolveRange_of_digit (toNat_ofNat_of_lt_256 (by omega)) n.isLt
  · exact resolveRange_of_upper (toNat_ofNat_of_lt_256 (by omega)) n.isLt
  · exact resolveRange_of_lower (toNat_ofNat_of_lt_256 (by omega)) n.isLt
  · simpa [Obligations.SpecialsResolveInPairing] using specialsResolveInPairing

/-- Settles O12: an entry of the list resolves as the range decoder has it. -/
theorem defaultFixedListSupport : Obligations.DefaultFixedListSupport := by
  refine ⟨fun i => ?_, resolveFixed_default_of_mem (by decide), resolveFixed_default_supported_count⟩
  obtain ⟨hmem, hrange⟩ := defaultFixedList_digits_and_letters i
  exact (resolveFixed_default_of_mem hmem).trans hrange

/-- Settles O13: a value up to 15 is its own address, and any larger one is rejected. -/
theorem hexPathMap : Obligations.HexPathMap := by
  refine ⟨fun n => ?_, fun v hv => ?_⟩
  · have hval : (BitVec.ofNat 8 n.val).toNat = n.val := toNat_ofNat_of_lt_256 (by omega)
    obtain ⟨_, -, hr⟩ | ⟨hgt, -⟩ := resolveHex_cases (BitVec.ofNat 8 n.val)
    · simpa only [hval] using hr
    · omega
  · obtain ⟨_, hle, -⟩ | ⟨-, hr⟩ := resolveHex_cases v
    · omega
    · exact hr

end Sys2Proof

/-! PROOF. The operations of a Device: what construction makes of the handles, what each operation shows and reports,
and what a sequence of operations leaves. -/

namespace Sys2Proof.Machine

variable {H : Type}

/-! ### Equations of an operation on a Device -/

section configured
variable {i : Instr} {s : State H} {d : Device H}

/-- Where the multiplexer selects a mask, it is driven on the lines and nothing else changes (R110). -/
theorem operation_of_mux_some {b : Mask} (hd : s.device? = some d) (hc : d.configured = true)
    (hm : muxOutput s.tables d.straps i = some b) :
    operation i s = .next (shownAs s { d with line := drivenLines b } (resultAfterWrite d.straps i)) := by
  rw [operation_of_configured i hd hc, hm]
  rfl

/-- Where the resolver rejects, UNSUPPORTED is put out and nothing else changes (R143). -/
theorem operation_of_mux_none (hd : s.device? = some d) (hc : d.configured = true)
    (hm : muxOutput s.tables d.straps i = none) : operation i s = .next { s with result := some .unsupported } := by
  rw [operation_of_configured i hd hc, hm]
  rfl

end configured

section mux
variable {tables : Tables} {straps : Straps}

theorem muxOutput_display_of_unsupported {c : CharCode} (h : resolveChar tables straps c = .unsupported) (dot : Bool) :
    muxOutput tables straps (.display c dot) = none := by
  simp only [muxOutput, h]

theorem muxOutput_displayHex_of_unsupported {v : HexValue} (h : resolveHex v = .unsupported) (dot : Bool) :
    muxOutput tables straps (.displayHex v dot) = none := by
  simp only [muxOutput, h]

theorem displayStatus_eq (straps : Straps) :
    displayStatus straps =
      if straps.policy = .range ∧ straps.rangeStatusParity = true then .unsupported else .ok := by
  obtain ⟨policy, parity, caseFold⟩ := straps
  cases policy <;> cases parity <;> rfl

end mux

theorem resolveHex_of_le {v : HexValue} (hv : v.toNat ≤ 15) : resolveHex v = .resolved ⟨v.toNat, by omega⟩ false := by
  obtain ⟨_, -, hr⟩ | ⟨hgt, -⟩ := resolveHex_cases v
  · exact hr
  · omega

theorem resolveHex_of_gt {v : HexValue} (hv : 15 < v.toNat) : resolveHex v = .unsupported := by
  obtain ⟨_, hle, -⟩ | ⟨-, hr⟩ := resolveHex_cases v
  · omega
  · exact hr

/-! ### The lines a mask drives -/

theorem drivenLines_get (b : Mask) (l : Segment) :
    (drivenLines b).get l = .driven (bitLevel (b.getLsbD (segbit l))) := by
  cases l <;> rfl

/-- The level at a silkscreen position after a mask was driven (R123). -/
theorem Device.pad_of_drivenLines {d : Device H} (hc : d.configured = true) (b : Mask) (p : Position) :
    Device.pad { d with line := drivenLines b } p = some (bitLevel (b.getLsbD (segbit (invPerm p)))) := by
  have hc' : Device.configured { d with line := drivenLines b } = true := hc
  rw [Device.pad, Device.level, if_pos hc', drivenLines_get]
  rfl

/-- The bits of a mask in the order of the silkscreen (R123). -/
theorem map_segbit_invPerm : (List.finRange 8).map (fun p => segbit (invPerm p)) = [2, 3, 4, 7, 5, 6, 1, 0] := by
  decide

/-! ### An operation twice -/

theorem Device.after_after (tables : Tables) (i : Instr) (d : Device H) :
    (d.after tables i).after tables i = d.after tables i := by
  cases hm : muxOutput tables d.straps i with
  | some b => simp only [Device.after, hm]
  | none => rw [Device.after_of_raise hm, Device.after_of_raise hm]

theorem Device.Keeps.ready {d d' : Device H} (h : d.Keeps d') {i : Instr} (hr : d.ready i = true) :
    d'.ready i = true := by
  rw [Device.ready, Bool.or_eq_true] at hr ⊢
  exact hr.imp_left h.configured

/-- An operation reads nothing that it writes but the mode, which it leaves ready. -/
theorem operation_again {i : Instr} {s t : State H} (h : operation i s = .next t) : operation i t = .next t := by
  obtain ⟨d, hd, hr, rfl⟩ := operation_next_iff.mp h
  rw [operation_of_ready (State.device?_report_put hd _ _) ((d.after_keeps _ i).ready hr)]
  simp [State.report, State.put, Device.after_after]

/-- Issuing an operation twice is issuing it once, whatever it answers. -/
theorem runOps_twice (i : Instr) (s : State) : runOps [i, i] s = runOps [i] s := by
  cases h : exec i s with
  | next t =>
    rw [exec_eq_operation] at h
    simp only [runOps, exec_eq_operation, h, operation_again h]
  | fault r => simp only [runOps, h]
  | refused r => simp only [runOps, h]

/-! ### A sequence of operations -/

/-- A sequence of operations on a configured Device completes, and each acts on what the one before left (R40). -/
theorem runOps_of_configured (ops : List Instr) {s : State} {d : Device} (hd : s.device? = some d)
    (hc : d.configured = true) :
    ∃ t, runOps ops s = .next t ∧ t.device? = some (ops.foldl (fun e i => e.after s.tables i) d) := by
  induction ops generalizing s d with
  | nil => exact ⟨s, rfl, hd⟩
  | cons i ops ih =>
    have hready : d.ready i = true := by simp [Device.ready, hc]
    obtain ⟨t, ht, hdev⟩ :=
      ih (State.device?_report_put hd (d.after s.tables i) (reportOf s.tables d.straps i))
        ((d.after_keeps s.tables i).configured hc)
    refine ⟨t, ?_, hdev⟩
    rw [runOps, exec_eq_operation, operation_of_ready hd hready]
    exact ht

/-- On a configured Device an operation that writes lines changes them alone. -/
theorem Device.after_of_configured {tables : Tables} {i : Instr} {d : Device H} {b : Mask} (hc : d.configured = true)
    (hm : muxOutput tables d.straps i = some b) : d.after tables i = { d with line := drivenLines b } := by
  simp only [Device.after, hm, (Device.configured_iff d).mp hc]

/-- The Device with the lines of the last mask in a list, or with its own where there is none. -/
def Device.showLast (d : Device H) (masks : List Mask) : Device H :=
  { d with line := match masks.getLast? with
                   | some b => drivenLines b
                   | none => d.line }

/-- A later mask hides an earlier one. -/
theorem Device.showLast_cons (d : Device H) (b : Mask) (masks : List Mask) :
    d.showLast (b :: masks) = Device.showLast { d with line := drivenLines b } masks := by
  rw [Device.showLast, Device.showLast, List.getLast?_cons]
  cases masks.getLast? <;> rfl

/-- Each operation overwrites all lines or none, so the last that writes them decides (R121). -/
theorem Device.foldl_after (tables : Tables) (ops : List Instr) {d : Device H} (hc : d.configured = true) :
    ops.foldl (fun e i => e.after tables i) d = d.showLast (ops.filterMap (muxOutput tables d.straps)) := by
  induction ops generalizing d with
  | nil => rfl
  | cons i ops ih =>
    rw [List.foldl_cons]
    cases hm : muxOutput tables d.straps i with
    | some b =>
      rw [Device.after_of_configured hc hm, ih (d := { d with line := drivenLines b }) hc, List.filterMap_cons_some hm,
        Device.showLast_cons]
    | none => rw [Device.after_of_raise hm, ih hc, List.filterMap_cons_none hm]

/-! ### The permutation (R112) -/

theorem perm_invPerm : ∀ p, perm (invPerm p) = p := by decide

theorem perm_bijective : Function.Bijective perm :=
  Function.bijective_iff_has_inverse.mpr ⟨invPerm, invPerm_perm, perm_invPerm⟩

end Sys2Proof.Machine

namespace Sys2Proof

open Sys2Proof.Machine

/-- Settles O48: the operations act on the Device one after the other, and each that writes lines overwrites all
eight. -/
theorem lastLineWriteWins : Obligations.LastLineWriteWins := by
  intro ops s d hd hc
  obtain ⟨t, ht, hdev⟩ := runOps_of_configured ops hd hc
  exact ⟨t, ht, hdev.trans (congrArg some (Device.foldl_after s.tables ops hc))⟩

/-! ### Construction -/

/-- Settles O21: no ground of refusal holds, and the remapper picks each handle by its position. -/
theorem constructRemapsPins : Obligations.ConstructRemapsPins := by
  intro s straps rest p0 p1 p2 p3 p4 p5 p6 p7 hp hfree hvalid hlist
  exact (stepWith_construct hp).trans (construct_of_fit rfl hfree hvalid hlist)

/-- Settles O23: one ground of refusal after the other, in the order of log 11. -/
theorem unfitBuildsAreRefused : Obligations.UnfitBuildsAreRefused := by
  intro s straps pins rest hp hl
  refine ⟨fun hn => ?_, fun hn ⟨h, hm, hown⟩ => ?_, fun hf hv => ?_, fun hf hv hw => ?_⟩
  · exact (stepWith_construct hp).trans (construct_of_repeated hl hn)
  · exact (stepWith_construct hp).trans (construct_of_shared hl hn fun hf => hf.2 h hm hown)
  · exact (stepWith_construct hp).trans (construct_of_invalid hl hf hv)
  · exact (stepWith_construct hp).trans (construct_of_illFormed hl hf hv hw)

/-- Settles O20: PERM and INVPERM undo each other, and the table is closed. -/
theorem permutationFromSilkscreenToLogical : Obligations.PermutationFromSilkscreenToLogical :=
  ⟨by decide, by decide, invPerm_perm, perm_invPerm, perm_bijective, by decide, by decide, remap_get⟩

/-! ### The six operations -/

/-- Settles O24: CONFIGURE is ready on any Device, enables every output and drives the empty mask. -/
theorem configureBlanksDevice : Obligations.ConfigureBlanksDevice := by
  intro s d hd
  have hready : d.ready .configure = true := by simp [Device.ready]
  rw [exec_eq_operation, operation_of_ready hd hready]
  rfl

/-- Settles O26: CLEAR drives the empty mask, and so does CONFIGURE, which finds the outputs enabled. -/
theorem clearDarkensAllLines : Obligations.ClearDarkensAllLines := by
  intro s d hd hc
  have hclear := operation_of_mux_some (i := .clear) hd hc rfl
  have hconfigure := operation_of_mux_some (i := .configure) hd hc rfl
  simp only [exec_eq_operation]
  exact ⟨hclear, runOps_twice .clear s, hclear.trans hconfigure.symm⟩

/-- Settles O27: the multiplexer passes the bitmask of RENDER on as it is. -/
theorem renderDrivesBitmask : Obligations.RenderDrivesBitmask := by
  intro b s d hd hc
  rw [exec_eq_operation]
  exact ⟨operation_of_mux_some hd hc rfl, runOps_twice (.render b) s⟩

/-- Settles O28: the multiplexer selects the dotted glyph, and the straps choose the result. -/
theorem displayShowsResolvedGlyph : Obligations.DisplayShowsResolvedGlyph := by
  intro c dot s d addr fdp hd hc hr
  rw [exec_eq_operation, operation_of_mux_some hd hc (muxOutput_display_of_resolved hr dot), resultAfterWrite,
    displayStatus_eq]

/-- Settles O29: the multiplexer selects nothing. -/
theorem displayRejectsUnsupported : Obligations.DisplayRejectsUnsupported := by
  intro c dot s d hd hc hr
  rw [exec_eq_operation]
  exact operation_of_mux_none hd hc (muxOutput_display_of_unsupported hr dot)

/-- Settles O30: the hex path answers the value as the address, without forcing DP. -/
theorem displayHexShowsDigit : Obligations.DisplayHexShowsDigit := by
  intro v dot s d hv hd hc
  rw [exec_eq_operation, operation_of_mux_some hd hc (muxOutput_displayHex_of_resolved (resolveHex_of_le hv) dot),
    Bool.or_false]
  rfl

/-- Settles O31: the hex path rejects the value. -/
theorem displayHexRejectsAboveFifteen : Obligations.DisplayHexRejectsAboveFifteen := by
  intro v dot s d hv hd hc
  rw [exec_eq_operation]
  exact operation_of_mux_none hd hc (muxOutput_displayHex_of_unsupported (resolveHex_of_gt hv) dot)

/-- Settles O32: DISPLAY_JUST_DOT drives 0x80, which is also what '.' composes to where its pattern is dark (R79). -/
theorem justDotLightsOnlyDp : Obligations.JustDotLightsOnlyDp := by
  have hjustDot {s : State} {d : Device} (hd : s.device? = some d) (hc : d.configured = true) :
      exec .displayJustDot s = .next (shownAs s { d with line := drivenLines 0x80 } .ok) :=
    (exec_eq_operation ..).trans (operation_of_mux_some hd hc rfl)
  refine ⟨fun s d => hjustDot, fun s => rfl, fun s d dot hd hc ⟨_, _, _, _, _, _, _, _, _, hdark⟩ hsupported => ?_⟩
  have hshow := operation_display_of_resolved hd hc (resolveChar_dot hsupported) dot
  rw [dottedMask_of_dark hdark, Bool.or_true, if_pos rfl] at hshow
  exact ⟨_, _, hjustDot hd hc, (exec_eq_operation ..).trans hshow, rfl⟩

/-! ### What an operation leaves alone, and what it shows on the pads -/

/-- Settles O35, by the three ways an operation answers a next state. -/
theorem runtimeOperationFrame : Obligations.RuntimeOperationFrame := by
  intro i s t ht
  rw [exec_eq_operation] at ht
  obtain ⟨d, hd, ⟨rfl, rfl⟩ | ⟨-, b, hm, rfl⟩ | ⟨-, -, rfl⟩⟩ := operation_next ht
  · exact ⟨rfl, rfl, rfl, rfl, .inr ⟨d, _, 0, hd, rfl, rfl, rfl, rfl, rfl, fun hne => absurd rfl hne⟩⟩
  · exact ⟨rfl, rfl, rfl, rfl, .inr ⟨d, _, b, hd, rfl, hm, rfl, rfl, rfl, fun _ => rfl⟩⟩
  · exact ⟨rfl, rfl, rfl, rfl, .inl rfl⟩

/-- Settles O42: the level at a position is that of the bit of the segment there. -/
theorem padViewOfRenderedMask : Obligations.PadViewOfRenderedMask := by
  intro b s d hd hc
  have hrender := operation_of_mux_some (i := .render b) hd hc rfl
  have hpad := Device.pad_of_drivenLines hc b
  refine ⟨_, _, (exec_eq_operation ..).trans hrender, State.device?_report_put hd _ .ok, hpad, ?_⟩
  rw [← map_segbit_invPerm, List.map_map]
  exact List.map_congr_left fun p _ => hpad p

end Sys2Proof

/-! PROOF. What an operation reports: the results it can put out, by the operation and by the parity strap, and the
steps that put out none. -/

namespace Sys2Proof.Machine

variable {H : Type}

/-! ### The result of an operation (R140 to R142) -/

section report
variable {straps : Straps}

/-- After a write only the parity strap makes the result UNSUPPORTED (R95). -/
theorem resultAfterWrite_of_no_parity (h : straps.rangeStatusParity = false) (i : Instr) :
    resultAfterWrite straps i = .ok := by
  cases i with
  | display c dot => simp [resultAfterWrite, displayStatus_eq, h]
  | _ => rfl

theorem resultAfterWrite_ok_or_unsupported (straps : Straps) (i : Instr) :
    resultAfterWrite straps i = .ok ∨ resultAfterWrite straps i = .unsupported := by
  cases i with
  | display c dot =>
    rw [resultAfterWrite, displayStatus_eq]
    split
    · exact .inr rfl
    · exact .inl rfl
  | _ => exact .inl rfl

theorem reportOf_ok_or_unsupported (tables : Tables) (straps : Straps) (i : Instr) :
    reportOf tables straps i = .ok ∨ reportOf tables straps i = .unsupported := by
  unfold reportOf
  split
  · exact resultAfterWrite_ok_or_unsupported straps i
  · exact .inr rfl

/-- No operation but the two with a resolver reports UNSUPPORTED (R142). -/
theorem display_or_displayHex_of_report_unsupported {tables : Tables} {i : Instr}
    (h : reportOf tables straps i = .unsupported) : ∃ a dot, i = .display a dot ∨ i = .displayHex a dot := by
  cases i with
  | display c dot => exact ⟨c, dot, .inl rfl⟩
  | displayHex v dot => exact ⟨v, dot, .inr rfl⟩
  | _ => cases h

theorem reportOf_ne_wrongPinCount (tables : Tables) (straps : Straps) (i : Instr) :
    reportOf tables straps i ≠ .wrongPinCount := by
  obtain h | h := reportOf_ok_or_unsupported tables straps i <;> simp [h]

end report

/-! ### Where an operation is legal (R163) -/

/-- An operation is legal exactly where the Device it is issued to is ready for it. -/
theorem legal_iff_ready {i : Instr} {s : State H} : Legal i s ↔ ∃ d, s.device? = some d ∧ d.ready i = true := by
  cases i <;> simp [Legal, Device.ready]

end Sys2Proof.Machine

namespace Sys2Proof

open Sys2Proof.Machine

/-- Settles O22: a wrong count is the first ground `construct` looks at, with 8 handles it refuses or reports OK, and
an operation reports OK or UNSUPPORTED. -/
theorem wrongPinCountMakesNoDevice : Obligations.WrongPinCountMakesNoDevice := by
  refine ⟨fun s straps pins rest hp hl => ?_, fun s t straps pins rest hp hl ht => ?_, fun i s t ht => ?_⟩
  · exact (stepWith_construct hp).trans (construct_of_wrongCount hl)
  · obtain ⟨hne, -⟩ | ⟨-, -, -, -, rfl⟩ := construct_next ((stepWith_construct hp).symm.trans ht)
    · exact absurd hl hne
    · simp
  · rw [exec_eq_operation] at ht
    obtain ⟨d, -, -, rfl⟩ := operation_next_iff.mp ht
    simpa using reportOf_ne_wrongPinCount s.tables d.straps i

/-- Settles O34: a legal operation finds its Device ready, and the report decides the result. -/
theorem legalOperationsComplete : Obligations.LegalOperationsComplete := by
  intro i s hlegal
  obtain ⟨d, hd, hr⟩ := legal_iff_ready.mp hlegal
  refine ⟨_, (exec_eq_operation ..).trans (operation_of_ready hd hr), ?_, fun h => ?_⟩
  · simpa using reportOf_ok_or_unsupported s.tables d.straps i
  · exact display_or_displayHex_of_report_unsupported (Option.some.inj h)

/-- Settles O36: of the three ways an operation answers a next state, the two that write lines report OK without the
parity strap. -/
theorem unsupportedChangesNothing : Obligations.UnsupportedChangesNothing := by
  intro i s t d hd hparity ht hresult
  rw [exec_eq_operation] at ht
  obtain ⟨e, he, ⟨-, rfl⟩ | ⟨-, b, -, rfl⟩ | ⟨-, -, rfl⟩⟩ := operation_next ht
  · cases hresult
  · obtain rfl : d = e := Option.some.inj (hd.symm.trans he)
    rw [State.report_result, resultAfterWrite_of_no_parity hparity] at hresult
    cases hresult
  · rfl

/-- Settles O40: with no input left, and while the host uses the LCD, the step idles. -/
theorem linesHoldBetweenOperations : Obligations.LinesHoldBetweenOperations := by
  rintro s (hp | ⟨rest, hp⟩)
  · rw [hp, List.tail_nil, ← hp]
    exact stepWith_nil hp
  · rw [hp]
    exact stepWith_peripheral hp

end Sys2Proof

/-! PROOF. The observables, and the bring-up of a Device: what `lit`, `pad` and `pad_of` see on a Device and on the
machine, and the steps from construction to the pads. -/

namespace Sys2Proof

theorem Segment.mem_list (l : Segment) : l ∈ Segment.list := by
  cases l <;> decide

/-- An octet that lists no value twice holds no value twice. -/
theorem Octet.get_injective {α : Type} {o : Octet α} (h : o.toList.Nodup) : Function.Injective o.get := by
  have hmap : (Segment.list.map o.get).Nodup := h
  exact fun l l' => List.inj_on_of_nodup_map hmap l.mem_list l'.mem_list

namespace Machine

variable {H : Type}

/-! ### The observables of one Device (R23) -/

theorem Device.level_of_configured {d : Device H} (hc : d.configured = true) (l : Segment) :
    d.level l = lineLevel (d.line.get l) :=
  if_pos hc

theorem Device.level_of_not_configured {d : Device H} (hc : d.configured = false) (l : Segment) : d.level l = none := by
  simp [Device.level, hc]

/-- A segment is lit or dark by the level its line is driven to (R166). -/
theorem Device.lit_eq_some_iff {d : Device H} (hc : d.configured = true) (l : Segment) (bit : Bool) :
    d.lit l = some bit ↔ d.line.get l = .driven (bitLevel bit) := by
  rw [Device.lit, Device.level_of_configured hc]
  cases d.line.get l with
  | unwritten => simp [lineLevel]
  | driven v => cases v <;> cases bit <;> decide

/-- On the handle of a segment `pad_of` sees the level of that segment. -/
theorem Device.padOf_pin [DecidableEq H] {d : Device H} (hn : d.pin.toList.Nodup) (l : Segment) :
    d.padOf (d.pin.get l) = d.level l := by
  have hfind : Segment.list.find? (fun l' => decide (d.pin.get l' = d.pin.get l)) = some l := by
    simp only [(Octet.get_injective hn).eq_iff]
    cases l <;> rfl
  rw [Device.padOf, hfind]

theorem Device.padOf_of_not_mem [DecidableEq H] {d : Device H} {h : H} (hm : h ∉ d.pin.toList) : d.padOf h = none := by
  have hfind : Segment.list.find? (fun l => decide (d.pin.get l = h)) = none := by
    simp only [List.find?_eq_none, decide_eq_true_eq]
    exact fun l _ hl => hm ((Octet.mem_toList ..).mpr ⟨l, hl⟩)
  rw [Device.padOf, hfind]

theorem Device.padOf_of_not_configured [DecidableEq H] {d : Device H} (hc : d.configured = false) (h : H) :
    d.padOf h = none := by
  unfold Device.padOf
  split
  · exact Device.level_of_not_configured hc _
  · rfl

/-- The levels at the silkscreen positions after a mask was driven, in order (R123). -/
theorem Device.map_pad_of_drivenLines {d : Device H} (hc : d.configured = true) {b : Mask}
    (hline : d.line = drivenLines b) :
    (List.finRange 8).map d.pad = [2, 3, 4, 7, 5, 6, 1, 0].map fun n => some (bitLevel (b.getLsbD n)) := by
  rw [← map_segbit_invPerm, List.map_map]
  refine List.map_congr_left fun p _ => ?_
  rw [Device.pad, Device.level_of_configured hc, hline, drivenLines_get]
  rfl

/-! ### The handles of a constructed Device, by silkscreen position (R113) -/

/-- The handle supplied at a position becomes the one of the segment at that position. -/
theorem remap_get_invPerm (pins : List H) (hl : pins.length = Config.nseg) (p : Position) :
    (remap pins hl).get (invPerm p) = pins[p.val]'(hl ▸ p.isLt) := by
  simp only [remap_get, perm_invPerm]

/-- On the handles in the order supplied, `pad_of` sees what `pad` sees at positions 0..7. -/
theorem Device.map_padOf_of_remap [DecidableEq H] {d : Device H} {pins : List H} (hl : pins.length = Config.nseg)
    (hn : pins.Nodup) (hpin : d.pin = remap pins hl) : pins.map d.padOf = (List.finRange 8).map d.pad := by
  have hpins : d.pin.toList.Nodup := hpin ▸ remap_nodup hl hn
  refine List.ext_getElem (by simp [hl, Config.nseg]) fun n _ hn8 => ?_
  have hpos := remap_get_invPerm pins hl ⟨n, by simpa using hn8⟩
  rw [← hpin] at hpos
  rw [List.getElem_map, List.getElem_map, ← hpos, Device.padOf_pin hpins, List.getElem_finRange]
  rfl

/-! ### The Device in the last slot -/

/-- On a handle that no earlier Device owns, the machine sees what the last Device has there. -/
theorem State.padOf_of_last [DecidableEq H] {s t : State H} {d : Device H} {h : H}
    (hslots : t.slots = s.slots ++ [.live d]) (hown : h ∉ s.owned) : t.padOf h = d.padOf h := by
  have hlive : t.liveDevices = s.liveDevices ++ [d] :=
    (State.liveDevices_congr (s := s.add d) hslots).trans (s.liveDevices_add d)
  have hnone : s.liveDevices.findSome? (fun e => e.padOf h) = none :=
    List.findSome?_eq_none_iff.mpr fun e he => Device.padOf_of_not_mem fun hm => hown (State.mem_owned.mpr ⟨e, he, hm⟩)
  rw [State.padOf, hlive, List.findSome?_append, hnone, List.findSome?_singleton, Option.none_or]

/-- Handles that are free and valid, under a well-formed list, bring a new Device into a slot after all others. -/
theorem step_construct_of_fit {s : State} {straps : Straps} {pins : List Handle} {rest : List HostInput}
    (hp : s.pending = .construct straps pins :: rest) (hl : pins.length = Config.nseg)
    (hf : HandlesFree pins s.owned) (hv : HandlesValid pins s.invalidHandles)
    (hw : FixedListWf straps.fixedCaseFold s.tables.fixedList) :
    ∃ t, step s = .next t ∧ t.slots = s.slots ++ [.live (newDevice straps pins hl)] ∧ t.pending = rest :=
  ⟨_, (stepWith_construct hp).trans (construct_of_fit hl hf hv hw), rfl, rfl⟩

/-- A command word issued to the last slot replaces the Device there by what the operation leaves of it. -/
theorem step_command_of_last {s : State} {slots : List (Slot Handle)} {d : Device} {w : CommandWord} {i : Instr}
    {rest : List HostInput} (hslots : s.slots = slots ++ [.live d])
    (hp : s.pending = .command slots.length w :: rest) (hw : decode w = .ok i) (hr : d.ready i = true) :
    ∃ t, step s = .next t ∧ t.slots = slots ++ [.live (d.after s.tables i)] ∧ t.pending = rest := by
  have hdev : ({ s with target := slots.length, pending := rest } : State).device? = some d :=
    State.live?_eq_some.mpr (by simp [hslots])
  have hstep := stepRunsIssuedCommand s slots.length w rest i hp hw
  rw [exec_eq_operation, operation_of_ready hdev hr] at hstep
  exact ⟨_, hstep, by simp [hslots], rfl⟩

theorem core_run_succ {s t : State} (h : step s = .next t) (k : Nat) : core.run (k + 1) s = core.run k t := by
  have hcore : core.step s = .next t := h
  simp only [Host.Core.run, hcore]

end Machine

open Sys2Proof.Machine

/-- Settles O25: a configured Device has the outputs that CONFIGURE enables, so only the empty mask is new. -/
theorem configureAgainOnlyReblanks : Obligations.ConfigureAgainOnlyReblanks := by
  intro s d hd hc
  exact (exec_eq_operation ..).trans (operation_of_mux_some (i := .configure) hd hc rfl)

/-- Settles O33: the two ways a Device can be missing for an operation. -/
theorem unreadyDevicesAreRefused : Obligations.UnreadyDevicesAreRefused := by
  intro i s
  rw [exec_eq_operation]
  refine ⟨operation_of_none i, fun d hd hc hi => operation_of_unready hd ?_⟩
  simp [Device.ready, hc, hi]

/-- Settles O43: `lit` reads the level of the line, which RENDER drives from the bit, and before `configure` there is
none to read. -/
theorem litMeansDrivenLow : Obligations.LitMeansDrivenLow := by
  refine ⟨fun d hc l => ⟨Device.lit_eq_some_iff hc l true, Device.lit_eq_some_iff hc l false⟩,
    fun b s d hd hc => ?_, fun d hc => ⟨fun l => ?_, fun p => ?_, Device.padOf_of_not_configured hc⟩⟩
  · have hrender := operation_of_mux_some (i := .render b) hd hc rfl
    exact ⟨_, _, (exec_eq_operation ..).trans hrender, State.device?_report_put hd _ .ok,
      fun l => (Device.lit_eq_some_iff (d := { d with line := drivenLines b }) hc l _).mpr (drivenLines_get b l)⟩
  · rw [Device.lit, Device.level_of_not_configured hc, Option.map_none]
  · exact Device.level_of_not_configured hc _

/-- Settles O52: the three steps leave the new Device in the last slot, with the pins remapped and the bitmask on its
lines; its handles are no other Device's, and the permutation brings each to the segment at its position. That the
handles are free is enough: the invariant itself is not needed. -/
theorem bringUpReachesThePads : Obligations.BringUpReachesThePads := by
  intro s straps rest b p0 p1 p2 p3 p4 p5 p6 p7 wc wr _ hfree hvalid hlist hwc hwr hp
  obtain ⟨t₁, hconstruct, hslots₁, hp₁⟩ := step_construct_of_fit hp rfl hfree hvalid hlist
  obtain ⟨t₂, hconfigure, hslots₂, hp₂⟩ := step_command_of_last hslots₁ hp₁ hwc rfl
  obtain ⟨t₃, hrender, hslots₃, hp₃⟩ := step_command_of_last hslots₂ hp₂ hwr rfl
  obtain ⟨hn, hown⟩ := hfree
  refine ⟨t₃, ?_, hp₃, ?_⟩
  · rw [core_run_succ hconstruct, core_run_succ hconfigure, core_run_succ hrender]
    rfl
  · rw [List.map_congr_left fun h hm => State.padOf_of_last hslots₃ (hown h hm), Device.map_padOf_of_remap rfl hn rfl]
    exact Device.map_pad_of_drivenLines rfl rfl

end Sys2Proof
